-- ==== Sys2Proof/Word.lean ====
section
/-! DEFINITION. Word.lean: the widths of 00_scope.md R11 and R14 as types. -/

namespace Sys2Proof

/-- `u8`: a frame byte, a handle, a slave address, a function code, a status (R14). -/
abbrev Byte := BitVec 8

/-- `u16`: a register value, a register address, the CRC (R14). -/
abbrev Half := BitVec 16

/-- `u32`: a payload beat, a tick count, a baud code (R14). -/
abbrev Word := BitVec 32

end Sys2Proof
end

