-- ==== Sys2Proof/Config.lean ====
section
/-! DEFINITION. Config.lean: the implementation parameters of 00_scope.md section 4. -/

namespace Sys2Proof.Config

/-- `MAX_FRAME` (R5): the largest frame, request or response, in bytes. -/
def maxFrame : Nat := 256

/-- `MAX_READ_COUNT = floor((MAX_FRAME - 5) / 2)` (R5, floor division by R9). -/
def maxReadCount : Nat := (maxFrame - 5) / 2

/-- `MAX_WRITE_COUNT = floor((MAX_FRAME - 9) / 2)` (R5, R9). -/
def maxWriteCount : Nat := (maxFrame - 9) / 2

/-- `MIN_FRAME_LEN` (R6): the shortest byte sequence the frame decoder accepts. -/
def minFrameLen : Nat := 5

/-- What the register commands pass to the exchange as `minResponseBytes` (43 R235). -/
def minResponseBytes : Nat := 5

/-- `CRC_POLY` (R7), the constant XORed in after a right shift. -/
def crcPoly : Half := 0xA001#16

/-- `CRC_INIT` (R7). -/
def crcInit : Half := 0xFFFF#16

/-- `FC_READ_HOLDING` (R8). -/
def fcReadHolding : Byte := 0x03#8

/-- `FC_READ_INPUT` (R8). -/
def fcReadInput : Byte := 0x04#8

/-- `FC_WRITE_HOLDING` (R8). -/
def fcWriteHolding : Byte := 0x10#8

/-- `EXC_BIT` (R8): marks an exception response. -/
def excBit : Byte := 0x80#8

/-- `T_SETTLE_RESET` (R10), ticks. -/
def tSettleReset : Word := 100#32

/-- `T_RESP_RESET` (R10), ticks. -/
def tRespReset : Word := 1000#32

/-- `T_DRAIN_RESET` (R10), ticks: 0 is non-blocking. -/
def tDrainReset : Word := 0#32

/-- The `maxBytes` of each drain read (42 R187). -/
def drainBytes : BitVec 9 := 256#9

end Sys2Proof.Config
end

