-- ==== Sys2Proof/Syntax.lean ====
section
/-! DEFINITION. Syntax.lean: the command record (30_encoding.md R91) and the eight commands (R93). -/

namespace Sys2Proof

/-- The command record `CMD` of R91, each field its own group of wires. -/
structure CmdRecord where
  /-- `cmd_op`: the opcode (R93). -/
  op : Byte
  /-- `cmd_slave`. -/
  slave : Byte
  /-- `cmd_start`. -/
  start : Half
  /-- `cmd_count`: registers, values, bytes or name length, by command. -/
  count : Word
  /-- `cmd_baud`. -/
  baud : Word
  /-- `cmd_databits`. -/
  databits : Byte
  /-- `cmd_parity`. -/
  parity : Byte
  /-- `cmd_stopbits`. -/
  stopbits : Byte
  /-- `cmd_t_settle`. -/
  tSettle : Word
  /-- `cmd_t_resp`. -/
  tResp : Word
  /-- `cmd_t_drain`. -/
  tDrain : Word
  deriving DecidableEq, Repr

/-- The commands of R93, one constructor per row of the opcode table, with the fields of R91 the
command uses. A count is a number (R14: comparisons and lengths are on unbounded integers);
`Instr.wf` keeps it within the 32 bits of `cmd_count`. The payload beats are not part of the record
(R92): they are taken from the payload stream. -/
inductive Instr where
  /-- 43 R231. -/
  | readHolding (slave : Byte) (start : Half) (count : Nat)
  /-- 43 R232. -/
  | readInput (slave : Byte) (start : Half) (count : Nat)
  /-- 43 R233. -/
  | writeHolding (slave : Byte) (start : Half) (count : Nat)
  /-- 42 R182. -/
  | connect (count : Nat) (baud : Word) (databits parity stopbits : Byte)
  /-- 42 R190. -/
  | disconnect
  /-- 42 R191. -/
  | setTiming (settle resp drain : Word)
  /-- 40 R134. -/
  | crc16 (count : Nat)
  /-- 40 R135. -/
  | crcCheck (count : Nat)
  deriving DecidableEq, Repr

end Sys2Proof
end

