-- ==== Sys2Proof/WellFormed.lean ====
section
/-! DEFINITION. WellFormed.lean: which instructions a command record can carry (30_encoding.md R91). -/

namespace Sys2Proof

/-- The count operand of a command, where it has one (R91 `cmd_count`). -/
def Instr.count? : Instr → Option Nat
  | .readHolding _ _ n => some n
  | .readInput _ _ n => some n
  | .writeHolding _ _ n => some n
  | .connect n _ _ _ _ => some n
  | .disconnect => none
  | .setTiming _ _ _ => none
  | .crc16 n => some n
  | .crcCheck n => some n

/-- An instruction is well formed when its count fits the 32 bits of `cmd_count` (R91); every other
operand has its field's width by its type. -/
def Instr.wf (i : Instr) : Bool :=
  match i.count? with
  | some n => decide (n < 2 ^ 32)
  | none => true

end Sys2Proof
end

