-- ==== Sys2Proof/Decode.lean ====
section
/-! DEFINITION. Decode.lean: the opcode map (30_encoding.md R93, R94), the decoder and the encoder.

R91 packs no field into a word. Where the record must be one number (the host numbers bit 0 as the
least significant bit of `cmd_op`) the model lays the fields out in R91's order, each little-endian,
27 bytes in all (DESIGN CHOICE, notes/assumptions/3.md). -/

namespace Sys2Proof

/-- Why a command is not decoded, by name. -/
inductive DecodeError where
  /-- `cmd_op` is none of the eight assigned values (R94): the engine answers `IllegalCommand`. -/
  | reservedOpcode (op : Byte)
  /-- Not 27 bytes: no command record. -/
  | wrongLength (n : Nat)
  deriving DecidableEq, Repr

/-- `cmd_op` of each command (R93). -/
def Instr.opcode : Instr → Byte
  | .readHolding _ _ _ => 0x03#8
  | .readInput _ _ _ => 0x04#8
  | .writeHolding _ _ _ => 0x10#8
  | .connect _ _ _ _ _ => 0x80#8
  | .disconnect => 0x81#8
  | .setTiming _ _ _ => 0x82#8
  | .crc16 _ => 0x90#8
  | .crcCheck _ => 0x91#8

/-- The opcode map of R93: `cmd_op` alone selects the command; fields it does not use are ignored (R91). -/
def decodeRecord (r : CmdRecord) : Except DecodeError Instr :=
  if r.op = 0x03#8 then .ok (.readHolding r.slave r.start r.count.toNat)
  else if r.op = 0x04#8 then .ok (.readInput r.slave r.start r.count.toNat)
  else if r.op = 0x10#8 then .ok (.writeHolding r.slave r.start r.count.toNat)
  else if r.op = 0x80#8 then .ok (.connect r.count.toNat r.baud r.databits r.parity r.stopbits)
  else if r.op = 0x81#8 then .ok .disconnect
  else if r.op = 0x82#8 then .ok (.setTiming r.tSettle r.tResp r.tDrain)
  else if r.op = 0x90#8 then .ok (.crc16 r.count.toNat)
  else if r.op = 0x91#8 then .ok (.crcCheck r.count.toNat)
  else .error (.reservedOpcode r.op)

/-- The two bytes of a 16-bit field of the packed record, low byte first. -/
def packHalf (v : Half) : List Byte :=
  [v.extractLsb' 0 8, v.extractLsb' 8 8]

/-- The four bytes of a 32-bit field of the packed record, low byte first. -/
def packWord (v : Word) : List Byte :=
  [v.extractLsb' 0 8, v.extractLsb' 8 8, v.extractLsb' 16 8, v.extractLsb' 24 8]

/-- A 16-bit field from its two bytes, low byte first. -/
def unpackHalf (b0 b1 : Byte) : Half := b1 ++ b0

/-- A 32-bit field from its four bytes, low byte first. -/
def unpackWord (b0 b1 b2 b3 : Byte) : Word := b3 ++ b2 ++ b1 ++ b0

/-- The command record as 27 bytes, fields in R91's order. -/
def CmdRecord.toBytes (r : CmdRecord) : List Byte :=
  [r.op, r.slave] ++ packHalf r.start ++ packWord r.count ++ packWord r.baud
    ++ [r.databits, r.parity, r.stopbits]
    ++ packWord r.tSettle ++ packWord r.tResp ++ packWord r.tDrain

/-- The command record in 27 bytes; any other number of bytes is no record. -/
def CmdRecord.ofBytes : List Byte → Except DecodeError CmdRecord
  | [op, slave, s0, s1, c0, c1, c2, c3, u0, u1, u2, u3, databits, parity, stopbits,
      e0, e1, e2, e3, p0, p1, p2, p3, d0, d1, d2, d3] =>
    .ok { op := op, slave := slave, start := unpackHalf s0 s1, count := unpackWord c0 c1 c2 c3,
          baud := unpackWord u0 u1 u2 u3, databits := databits, parity := parity,
          stopbits := stopbits, tSettle := unpackWord e0 e1 e2 e3,
          tResp := unpackWord p0 p1 p2 p3, tDrain := unpackWord d0 d1 d2 d3 }
  | bytes => .error (.wrongLength bytes.length)

/-- The decoder, total on any bytes, rejecting by name. -/
def decode (bytes : List Byte) : Except DecodeError Instr :=
  match CmdRecord.ofBytes bytes with
  | .ok r => decodeRecord r
  | .error e => .error e

/-- The number of bytes of a packed command record. -/
def recordBytes : Nat := 27

/-- The bytes of the number `w`, `n` of them, least significant first. -/
def bytesOfNat : Nat → Nat → List Byte
  | 0, _ => []
  | n + 1, w => BitVec.ofNat 8 w :: bytesOfNat n (w / 256)

/-- The bytes of a table word: its `nbits` bits, every higher bit of the record 0. -/
def tableBytes (nbits w : Nat) : List Byte :=
  bytesOfNat recordBytes (w % 2 ^ nbits)

/-- The instruction the decoder reads from a word of the opcode table. -/
def decodeTableWord (nbits w : Nat) : Option Instr :=
  match decode (tableBytes nbits w) with
  | .ok i => some i
  | .error _ => none

/-- The command record of an instruction (R91, R93); a field the command does not use is 0. -/
def encodeRecord : Instr → CmdRecord
  | .readHolding slave start n =>
    { op := 0x03#8, slave := slave, start := start, count := BitVec.ofNat 32 n, baud := 0,
      databits := 0, parity := 0, stopbits := 0, tSettle := 0, tResp := 0, tDrain := 0 }
  | .readInput slave start n =>
    { op := 0x04#8, slave := slave, start := start, count := BitVec.ofNat 32 n, baud := 0,
      databits := 0, parity := 0, stopbits := 0, tSettle := 0, tResp := 0, tDrain := 0 }
  | .writeHolding slave start n =>
    { op := 0x10#8, slave := slave, start := start, count := BitVec.ofNat 32 n, baud := 0,
      databits := 0, parity := 0, stopbits := 0, tSettle := 0, tResp := 0, tDrain := 0 }
  | .connect n baud databits parity stopbits =>
    { op := 0x80#8, slave := 0, start := 0, count := BitVec.ofNat 32 n, baud := baud,
      databits := databits, parity := parity, stopbits := stopbits, tSettle := 0, tResp := 0,
      tDrain := 0 }
  | .disconnect =>
    { op := 0x81#8, slave := 0, start := 0, count := 0, baud := 0,
      databits := 0, parity := 0, stopbits := 0, tSettle := 0, tResp := 0, tDrain := 0 }
  | .setTiming settle resp drain =>
    { op := 0x82#8, slave := 0, start := 0, count := 0, baud := 0,
      databits := 0, parity := 0, stopbits := 0, tSettle := settle, tResp := resp, tDrain := drain }
  | .crc16 n =>
    { op := 0x90#8, slave := 0, start := 0, count := BitVec.ofNat 32 n, baud := 0,
      databits := 0, parity := 0, stopbits := 0, tSettle := 0, tResp := 0, tDrain := 0 }
  | .crcCheck n =>
    { op := 0x91#8, slave := 0, start := 0, count := BitVec.ofNat 32 n, baud := 0,
      databits := 0, parity := 0, stopbits := 0, tSettle := 0, tResp := 0, tDrain := 0 }

/-- The packed record of an instruction, as `decode` reads it. -/
def encode (i : Instr) : List Byte := (encodeRecord i).toBytes

end Sys2Proof
end

