-- ==== Sys2Proof/Machine/State.lean ====
section
/-! DEFINITION. Machine/State.lean: the whole state of the engine (10_state.md R43), what the spec
only implies, the environment's inputs and the event history, all plain data; the reset state. -/

namespace Sys2Proof.Machine

/-- The eleven states of `ST` (R23). Codes 11 to 15 are never taken, so they are not representable. -/
inductive SessionState where
  /-- `S_DISC`, rest: no Connection exists. -/
  | sDisc
  /-- `S_CLOSING`: closing the transport of the current Connection. -/
  | sClosing
  /-- `S_OPEN`: waiting for the answer to `T.open`. -/
  | sOpen
  /-- `S_DRAIN`: reading and discarding stale bytes. -/
  | sDrain
  /-- `S_SETTLE`: waiting out the settle interval. -/
  | sSettle
  /-- `S_SYNC_FLUSH`: flushing at the end of resynchronisation. -/
  | sSyncFlush
  /-- `S_IDLE`, rest: Connected, no exchange in flight. -/
  | sIdle
  /-- `S_TX`: writing the request frame. -/
  | sTx
  /-- `S_RX`: reading the response frame. -/
  | sRx
  /-- `S_CHECK`: decoding and checking the received frame. -/
  | sCheck
  /-- `S_ERR_FLUSH`: flushing after a failed exchange, before the error is surfaced. -/
  | sErrFlush
  deriving DecidableEq, Repr

/-- The fifteen statuses of a response (60_exceptions.md R260). -/
inductive Status where
  | ok
  | connectionError
  | notConnected
  | transportTimeout
  | malformedFrame
  | checksumError
  | unexpectedResponse
  | slaveExceptionError
  | tooManyRegisters
  | tooManyValues
  | invalidRegisterValue
  | registerCountMismatch
  | writeCountMismatch
  | transportWriteError
  | illegalCommand
  deriving DecidableEq, Repr

/-- A cell memory of `w`-bit cells: (index, value) pairs, indices strictly rising, no entry equal to
what an unlisted index reads as. With `w = 8` it is a list of `Host.Cell`. -/
abbrev Memory (w : Nat) := List (Nat × BitVec w)

/-- What an index that is not listed reads as: 0 (DESIGN CHOICE, notes/assumptions/5.md: R43 gives the
buffers no value at reset). -/
def Memory.unlisted (w : Nat) : BitVec w := 0#w

/-- One call on the transport port (20_memory.md R66 to R70, 30_encoding.md R98). -/
inductive Call where
  /-- `T.open(name, baud, databits, parity, stopbits)`, `length` the number of bytes of the name (`t_len`), which
  follow on the call's byte stream (42_bus_session.md R182). -/
  | openPort (length : Nat) (baud : Word) (databits parity stopbits : Byte)
  /-- `T.read(h, maxBytes, timeout)`. -/
  | read (h : Byte) (maxBytes : BitVec 9) (timeout : Word)
  /-- `T.write(h, b)`. -/
  | write (h : Byte) (bytes : List Byte)
  /-- `T.flush(h)`. -/
  | flush (h : Byte)
  /-- `T.close(h)`. -/
  | close (h : Byte)
  deriving DecidableEq, Repr

/-- One answer record of the transport port with its byte stream (R99), and the ticks the engine
counted between issuing the call and taking this answer (20_memory.md R67). -/
structure Answer where
  /-- `a_ok`. -/
  ok : Bool
  /-- `a_handle`. -/
  handle : Byte
  /-- `a_n`. -/
  n : BitVec 9
  /-- The beats of `ar_data`, read answers only. -/
  bytes : List Byte
  /-- The elapsed ticks `dt`. -/
  dt : Nat
  deriving DecidableEq, Repr

/-- What the engine reads in an answer, by the call it answers (R66 to R70). -/
inductive Reply where
  /-- `Opened(h)`. -/
  | opened (h : Byte)
  /-- `TransportError`, of an open or a write. -/
  | transportError
  /-- `Written(n)`. -/
  | written (n : BitVec 9)
  /-- The bytes of a drain read; its `dt` is ignored (42 R187). -/
  | drained (bytes : List Byte)
  /-- The bytes of a response read and its `dt` (42 R196). -/
  | data (bytes : List Byte) (dt : Nat)
  /-- The answer of a flush. -/
  | flushed
  /-- The answer of a close. -/
  | closed
  deriving DecidableEq, Repr

/-- One response record (30_encoding.md R95). -/
structure Response where
  /-- `rsp_status`. -/
  status : Byte
  /-- `rsp_exc`. -/
  exc : Byte
  /-- `rsp_result`. -/
  result : Half
  deriving DecidableEq, Repr

/-- One line of the event history (42_bus_session.md R205); a call and its answer are two events. -/
inductive Event where
  /-- A command accepted. -/
  | cmd (i : Instr)
  /-- A reserved opcode accepted (R94). -/
  | reserved (op : Byte)
  /-- One payload beat taken (R92). -/
  | payload (beat : Word)
  /-- One payload beat of a `CONNECT` taken and, in the same transfer, `byte` put on the byte stream of `T.open`
  (`tw_data`, R98; 42_bus_session.md R182). -/
  | forward (beat : Word) (byte : Byte)
  /-- A transport call issued. -/
  | call (c : Call)
  /-- A transport answer taken. -/
  | reply (r : Reply)
  /-- A settle wait of `n` ticks done (42 R188). -/
  | wait (n : Word)
  /-- A response record delivered (R95). -/
  | rsp (r : Response)
  /-- One value beat delivered (R96). -/
  | value (v : Half)
  /-- The reset input seen (70 R300). -/
  | rst
  deriving DecidableEq, Repr

/-- The state of the machine. -/
structure State where
  /-- `ST` (R23). -/
  st : SessionState
  /-- `CONN_OPEN` (R25). -/
  connOpen : Bool
  /-- `HANDLE` (R26). -/
  handle : Byte
  /-- `BAUD` (R27). -/
  baud : Word
  /-- `DATABITS` (R27). -/
  databits : Byte
  /-- `PARITY` (R27). -/
  parity : Byte
  /-- `STOPBITS` (R27). -/
  stopbits : Byte
  /-- `SLAVE` (R28). -/
  slave : Byte
  /-- `T_SETTLE` (R31). -/
  tSettle : Word
  /-- `T_RESP` (R32). -/
  tResp : Word
  /-- `T_DRAIN` (R33). -/
  tDrain : Word
  /-- `OP` (R39). -/
  op : Byte
  /-- `EXP_FC` (R39). -/
  expFc : Byte
  /-- `REQ_COUNT` (R39). -/
  reqCount : Half
  /-- `ERR` (R39). -/
  err : Byte
  /-- `EXC` (R39). -/
  exc : Byte
  /-- `CRC` (R34). -/
  crc : Half
  /-- `TXBUF` (R35), indices 0 to 255. -/
  txbuf : Memory 8
  /-- `TX_LEN` (R35). -/
  txLen : BitVec 9
  /-- `RXBUF` (R36), indices 0 to 255. -/
  rxbuf : Memory 8
  /-- `RX_LEN` (R36). -/
  rxLen : BitVec 9
  /-- `REM` (R37). -/
  rem : Word
  /-- `VBUF` (R38), indices 0 to 124. -/
  vbuf : Memory 16
  /-- `V_LEN` (R38). -/
  vLen : BitVec 8
  /-- The latched command (R90, 20_memory.md R78), while one is in execution. -/
  cmd : Option Instr
  /-- The command in execution is taking its payload beats (R92). -/
  plWait : Bool
  /-- How many beats of that payload have been taken: the next one is element `plTaken` of the operand (R92). -/
  plTaken : Nat
  /-- Every beat of that payload has passed its test so far: the range of a value (43 R233), the trailer of a
  `CRC_CHECK` (40 R135). -/
  plGood : Bool
  /-- The transport call of the state `ST` is in is offered and not yet issued (`t_valid`, R98). -/
  callWait : Bool
  /-- The response offered to the host and not yet taken (R95). -/
  rspOut : Option Response
  /-- The value beats that follow the response record and are not yet delivered (R96). -/
  rvOut : List Half
  /-- Input: the command records the host presents, first first (R90). -/
  cmdIn : List CmdRecord
  /-- Input: the payload beats the host has offered, first first (R92). -/
  payload : List Word
  /-- Input: the host takes a response record that is offered (`rsp_ready`, R95). -/
  rspReady : Bool
  /-- Input: the host takes a value beat that is offered (`rv_ready`, R96). -/
  rvReady : Bool
  /-- Input: the transport takes a call that is offered (`t_ready`, R98). -/
  tReady : Bool
  /-- Input: the transport takes a byte of the stream of `T.open` (`tw_ready`, R98). -/
  twReady : Bool
  /-- Input: the answers the transport gives, in the order of the calls (R99). -/
  answers : List Answer
  /-- Input: tick pulses the time base delivers during the settle wait (R16, 42 R188). -/
  ticks : Nat
  /-- Input: the reset input is asserted (70 R300). -/
  rst : Bool
  /-- The event history, oldest first (42 R205): the model's own record, read by no rule. -/
  trace : List Event
  deriving DecidableEq, Repr

/-- Why the machine stops. Both are SAFE and raised by no state that meets `Safety.Inv`. -/
inductive Fault where
  /-- A frame buffer index past 255 would be formed (00_scope.md R17, 93 U19: "refuse"). Raised by
  the receive and check transitions and the request loader, `Ops.lean` and `Session.lean`. Safe. -/
  | frameBufferIndex
  /-- A value buffer index past 124 would be formed (10_state.md R38). Raised by the value loader. Safe. -/
  | valueBufferIndex
  deriving DecidableEq, Repr

/-- Why the model gives no next state. -/
inductive Refusal where
  /-- The instruction has no meaning in the model yet; raised by `exec` alone. Safe. -/
  | notModelled (mnemonic : String)
  /-- A read answer longer than `maxBytes`: the operation's contract excludes it and the model has
  no step for it (20_memory.md R81 c, 93 U7). Raised by the read answers of drain and exchange. Safe. -/
  | readAnswerTooLong
  /-- A read answer whose byte stream does not have `a_n` beats: a broken port protocol (R99, 93 U20).
  Raised by the read answers of drain and exchange. Safe. -/
  | answerStreamLength
  deriving DecidableEq, Repr

/-- The machine right after reset (R43, 70 R301). An element the spec gives no value holds 0
(DESIGN CHOICE, notes/assumptions/4.md); no input has arrived, the host and the transport are ready
(DESIGN CHOICE, notes/assumptions/2.md, 7.md, 8.md, 9.md). -/
def State.reset : State where
  st := .sDisc
  connOpen := false
  handle := 0
  baud := 0
  databits := 0
  parity := 0
  stopbits := 0
  slave := 0
  tSettle := Config.tSettleReset
  tResp := Config.tRespReset
  tDrain := Config.tDrainReset
  op := 0
  expFc := 0
  reqCount := 0
  err := 0
  exc := 0
  crc := 0
  txbuf := []
  txLen := 0
  rxbuf := []
  rxLen := 0
  rem := 0
  vbuf := []
  vLen := 0
  cmd := none
  plWait := false
  plTaken := 0
  plGood := true
  callWait := false
  rspOut := none
  rvOut := []
  cmdIn := []
  payload := []
  rspReady := true
  rvReady := true
  tReady := true
  twReady := true
  answers := []
  ticks := 0
  rst := false
  trace := []

end Sys2Proof.Machine
end

