-- ==== Sys2Proof/Machine/Operands.lean ====
section
/-! DEFINITION. Machine/Operands.lean: every operand form: halves and bytes (00_scope.md R14, R15;
30_encoding.md R106), payload beats (R92), and the port records of calls and answers (R98, R99). -/

namespace Sys2Proof.Machine

/-- `lo8(v) = v[7:0]` (R14). -/
def lo8 (v : Half) : Byte := v.setWidth 8

/-- `hi8(v) = v[15:8]` (R14). -/
def hi8 (v : Half) : Byte := (v >>> 8).setWidth 8

/-- `be16(h, l)`: a 16-bit value from its high and low byte (R15). -/
def be16 (h l : Byte) : Half := (h.setWidth 16 <<< 8) ||| l.setWidth 16

/-- `a ∸ dt` on a tick counter: truncated subtraction (R14, 42 R196). -/
def ticksLeft (a : Word) (dt : Nat) : Word := BitVec.ofNat 32 (a.toNat - dt)

/-- Byte `i` of a frame. Every rule that reads one tests the length first. -/
def byteAt (b : List Byte) (i : Nat) : Byte := b.getD i 0

/-- The values `hi8`, `lo8` of each value in order (30_encoding.md R106, 41 R162 b). -/
def valueBytes : List Half → List Byte
  | [] => []
  | v :: vs => hi8 v :: lo8 v :: valueBytes vs

/-- The `k` 16-bit values at offset `off` of a frame (41 R159). -/
def valuesAt (b : List Byte) (off : Nat) : Nat → List Half
  | 0 => []
  | k + 1 => be16 (byteAt b off) (byteAt b (off + 1)) :: valuesAt b (off + 2) k

/-- The byte of a payload beat of `CRC16`, `CRC_CHECK`, `CONNECT`: `pl_data[7:0]`, the rest is
ignored (R92). -/
def beatByte (beat : Word) : Byte := beat.setWidth 8

/-- The value a payload beat of `WRITE_HOLDING` stores, `v_i[15:0]` (43 R233). -/
def beatValue (beat : Word) : Half := beat.setWidth 16

/-- The range test of `WRITE_HOLDING`: the beat as a signed 32-bit integer lies in 0 to 65535
(43 R233, 60 R270). -/
def beatInRange (beat : Word) : Bool := decide (0 ≤ beat.toInt ∧ beat.toInt ≤ 65535)

/-- What an answer to `T.open` says (R66, R99). -/
def openReply (a : Answer) : Reply := if a.ok then .opened a.handle else .transportError

/-- What an answer to `T.write` says (R68, R99). -/
def writeReply (a : Answer) : Reply := if a.ok then .written a.n else .transportError

/-- The request record of a transport call (R98); a field the call does not use is not driven. -/
structure RequestRecord where
  /-- `t_op`. -/
  op : BitVec 3
  /-- `t_handle`. -/
  handle : Option Byte
  /-- `t_max`. -/
  maxBytes : Option (BitVec 9)
  /-- `t_timeout`. -/
  timeout : Option Word
  /-- `t_len`. -/
  len : Option Word
  /-- `t_baud`. -/
  baud : Option Word
  /-- `t_databits`. -/
  databits : Option Byte
  /-- `t_parity`. -/
  parity : Option Byte
  /-- `t_stopbits`. -/
  stopbits : Option Byte
  deriving DecidableEq, Repr

/-- The request record of R98, `t_op` 0 `OPEN`, 1 `READ`, 2 `WRITE`, 3 `FLUSH`, 4 `CLOSE`. -/
def Call.request : Call → RequestRecord
  | .openPort length baud databits parity stopbits =>
    { op := 0, handle := none, maxBytes := none, timeout := none,
      len := some (BitVec.ofNat 32 length), baud := some baud, databits := some databits,
      parity := some parity, stopbits := some stopbits }
  | .read h m t =>
    { op := 1, handle := some h, maxBytes := some m, timeout := some t, len := none, baud := none,
      databits := none, parity := none, stopbits := none }
  | .write h b =>
    { op := 2, handle := some h, maxBytes := none, timeout := none,
      len := some (BitVec.ofNat 32 b.length), baud := none, databits := none, parity := none,
      stopbits := none }
  | .flush h =>
    { op := 3, handle := some h, maxBytes := none, timeout := none, len := none, baud := none,
      databits := none, parity := none, stopbits := none }
  | .close h =>
    { op := 4, handle := some h, maxBytes := none, timeout := none, len := none, baud := none,
      databits := none, parity := none, stopbits := none }

/-- How many bytes of a port name follow a transport call on its byte stream, straight from the payload stream
(R98, 42 R182): `t_len` of a `T.open`. -/
def Call.nameLength : Call → Nat
  | .openPort length _ _ _ _ => length
  | .read _ _ _ => 0
  | .write _ _ => 0
  | .flush _ => 0
  | .close _ => 0

/-- The bytes of the engine's own that a transport call puts on its byte stream, the beats of `tw_data` (R98): the
frame of a `T.write`. The name of a `T.open` is forwarded (42 R182). -/
def Call.stream : Call → List Byte
  | .openPort _ _ _ _ _ => []
  | .read _ _ _ => []
  | .write _ b => b
  | .flush _ => []
  | .close _ => []

end Sys2Proof.Machine
end

