-- ==== Sys2Proof/Machine/Flags.lean ====
section
/-! DEFINITION. Machine/Flags.lean: the flags and level outputs (10_state.md R25, R44), the readiness
of the command port (30_encoding.md R90) and the code numbers of states and statuses (R23, 60 R260). -/

namespace Sys2Proof.Machine

/-- The numeric code of `ST` (R23). -/
def SessionState.code : SessionState → BitVec 4
  | .sDisc => 0
  | .sClosing => 1
  | .sOpen => 2
  | .sDrain => 3
  | .sSettle => 4
  | .sSyncFlush => 5
  | .sIdle => 6
  | .sTx => 7
  | .sRx => 8
  | .sCheck => 9
  | .sErrFlush => 10

/-- The two rest states (R23). -/
def SessionState.isRest : SessionState → Bool
  | .sDisc => true
  | .sIdle => true
  | .sClosing => false
  | .sOpen => false
  | .sDrain => false
  | .sSettle => false
  | .sSyncFlush => false
  | .sTx => false
  | .sRx => false
  | .sCheck => false
  | .sErrFlush => false

/-- The states of an exchange whose `T.write` has been issued (42 R202, 60 R275). -/
def SessionState.inExchange : SessionState → Bool
  | .sTx => true
  | .sRx => true
  | .sCheck => true
  | .sDisc => false
  | .sIdle => false
  | .sClosing => false
  | .sOpen => false
  | .sDrain => false
  | .sSettle => false
  | .sSyncFlush => false
  | .sErrFlush => false

/-- The states that wait for the answer of a transport call (42 R180). -/
def SessionState.awaitsAnswer : SessionState → Bool
  | .sClosing => true
  | .sOpen => true
  | .sDrain => true
  | .sSyncFlush => true
  | .sTx => true
  | .sRx => true
  | .sErrFlush => true
  | .sDisc => false
  | .sIdle => false
  | .sSettle => false
  | .sCheck => false

/-- The status code numbers (60 R260). -/
def Status.code : Status → Byte
  | .ok => 0
  | .connectionError => 1
  | .notConnected => 2
  | .transportTimeout => 3
  | .malformedFrame => 4
  | .checksumError => 5
  | .unexpectedResponse => 6
  | .slaveExceptionError => 7
  | .tooManyRegisters => 8
  | .tooManyValues => 9
  | .invalidRegisterValue => 10
  | .registerCountMismatch => 11
  | .writeCountMismatch => 12
  | .transportWriteError => 13
  | .illegalCommand => 14

/-- Nothing waits to be delivered: no response record and no value beat (30_encoding.md R95, R96). -/
def State.quiet (s : State) : Bool := s.rspOut.isNone && s.rvOut.isEmpty

/-- `busy` (R25): 1 from the acceptance of a command to the delivery of its response, value beats included. -/
def State.busy (s : State) : Bool := s.cmd.isSome || !s.quiet

/-- `connected` (R44). -/
def State.connected (s : State) : Bool := s.connOpen

/-- `cmd_ready` (R90): in a rest state with no command in execution; 0 while `rst` is 1 (70 R300). -/
def State.cmdReady (s : State) : Bool := !s.busy && s.st.isRest && !s.rst

/-- `rsp_valid` (R95; 0 while `rst` is 1, 70 R300). -/
def State.rspValid (s : State) : Bool := s.rspOut.isSome && !s.rst

/-- `rv_valid` (R96): the value beats follow the record. -/
def State.rvValid (s : State) : Bool := s.rspOut.isNone && !s.rvOut.isEmpty && !s.rst

/-- `t_valid` (R98; 0 while `rst` is 1, 70 R300): a transport call is offered. -/
def State.tValid (s : State) : Bool := s.callWait && !s.rst

/-- A transport call has been issued and its answer not taken. -/
def State.callOutstanding (s : State) : Bool := s.st.awaitsAnswer && !s.callWait

/-- How many payload beats the command in execution has still to take (R92). -/
def State.plLeft (s : State) : Nat :=
  match s.cmd with
  | some i =>
    match i.count? with
    | some n => n - s.plTaken
    | none => 0
  | none => 0

/-- `T.open` has been issued and the bytes of the name are being forwarded to its byte stream (42 R182). -/
def State.naming (s : State) : Bool := s.plWait && s.callOutstanding

/-- `a_ready` (70 R312: only while a call is outstanding; R300: 0 while `rst` is 1). The answer of `T.open` is taken
after the last byte of the name (R98, R99; DEDUCED, notes/assumptions/6.md). -/
def State.aReady (s : State) : Bool := s.callOutstanding && !s.plWait && !s.rst

/-- The command in execution has not taken all its payload beats (R92). -/
def State.plWanted (s : State) : Bool := s.plWait && s.quiet && !s.rst && decide (0 < s.plLeft)

/-- `pl_ready` (R92; 0 while `rst` is 1, 70 R300). A byte of a name passes through, so it is taken only when the
transport takes it (42 R182). -/
def State.plReady (s : State) : Bool := s.plWanted && (!s.naming || s.twReady)

/-- `tw_valid` for the name of `T.open` (R98, 42 R182): the host offers the next byte. -/
def State.twValid (s : State) : Bool := s.naming && s.quiet && !s.payload.isEmpty && !s.rst

end Sys2Proof.Machine
end

