-- ==== Sys2Proof/Machine/Ops.lean ====
section
/-! DEFINITION. Machine/Ops.lean: the named operations over the buffers, the ports and the registers,
and a command's failure as one shared operation (60_exceptions.md R277) with the return from it. -/

namespace Sys2Proof.Machine

/-- What one transition of the session machine does. -/
inductive Progress where
  /-- The engine moved on. -/
  | moved (s : State)
  /-- The engine waits for an input that is not there, or is at rest. -/
  | blocked
  /-- The model stops with a fault. -/
  | fault (f : Fault)
  /-- The model has no step. -/
  | refused (r : Refusal)
  deriving DecidableEq, Repr

/-- Go on from a state the engine has moved to. -/
def Progress.andThen (p : Progress) (f : State → Progress) : Progress :=
  match p with
  | .moved s => f s
  | .blocked => .blocked
  | .fault e => .fault e
  | .refused r => .refused r

/-! ## Buffers (20_memory.md R60) -/

/-- The cell at index `a`. -/
def Memory.read {w : Nat} (m : Memory w) (a : Nat) : BitVec w :=
  match m with
  | [] => Memory.unlisted w
  | (k, v) :: rest => if k = a then v else Memory.read rest a

/-- `m` with `v` at index `a`, in canonical form. -/
def Memory.write {w : Nat} (m : Memory w) (a : Nat) (v : BitVec w) : Memory w :=
  match m with
  | [] => if v = Memory.unlisted w then [] else [(a, v)]
  | (k, x) :: rest =>
    if a < k then
      (if v = Memory.unlisted w then (k, x) :: rest else (a, v) :: (k, x) :: rest)
    else if a = k then
      (if v = Memory.unlisted w then rest else (a, v) :: rest)
    else (k, x) :: Memory.write rest a v

/-- The `n` cells from index `i` on, in order: `MemRead(BUF, i, n)` (R17, R60). -/
def Memory.readFrom {w : Nat} (m : Memory w) (i : Nat) : Nat → List (BitVec w)
  | 0 => []
  | n + 1 => m.read i :: m.readFrom (i + 1) n

/-- The sequence `b` stored from index `i` on: `MemWrite(BUF, i, len b, b)` (R17, R60). -/
def Memory.writeFrom {w : Nat} (m : Memory w) (i : Nat) : List (BitVec w) → Memory w
  | [] => m
  | v :: vs => (m.write i v).writeFrom (i + 1) vs

/-- The canonical form: indices strictly rising, no entry equal to what an unlisted index reads as. -/
abbrev Memory.wf {w : Nat} (m : Memory w) : Prop :=
  m.Pairwise (fun a b => a.1 < b.1) ∧ ∀ c ∈ m, c.2 ≠ Memory.unlisted w

/-- Every listed index is below `n`. -/
abbrev Memory.below {w : Nat} (m : Memory w) (n : Nat) : Prop := ∀ c ∈ m, c.1 < n

/-- `TXBUF[0..TX_LEN)` (R35). -/
def State.tx (s : State) : List Byte := s.txbuf.readFrom 0 s.txLen.toNat

/-- `RXBUF[0..RX_LEN)` (R36). -/
def State.rx (s : State) : List Byte := s.rxbuf.readFrom 0 s.rxLen.toNat

/-- `VBUF[0..V_LEN)` (R38). -/
def State.values (s : State) : List Half := s.vbuf.readFrom 0 s.vLen.toNat

/-- Received bytes are appended to `RXBUF` (42 R196). -/
def appendRx (bytes : List Byte) (s : State) : Progress :=
  if s.rxLen.toNat + bytes.length ≤ Config.maxFrame then
    .moved { s with rxbuf := s.rxbuf.writeFrom s.rxLen.toNat bytes,
                    rxLen := BitVec.ofNat 9 (s.rxLen.toNat + bytes.length) }
  else .fault .frameBufferIndex

/-- Values go into `VBUF` from index 0 and their number into `V_LEN` (R38). -/
def loadValues (vs : List Half) (s : State) : Progress :=
  if vs.length ≤ Config.maxReadCount then
    .moved { s with vbuf := s.vbuf.writeFrom 0 vs, vLen := BitVec.ofNat 8 vs.length }
  else .fault .valueBufferIndex

/-! ## The event history and the ports -/

/-- Record one port transfer (42 R205). -/
def log (e : Event) (s : State) : State := { s with trace := s.trace ++ [e] }

/-- Offer the transport call of the state `ST` is in (R98): a later step issues it. -/
def offerCall (s : State) : State := { s with callWait := true }

/-- Issue the offered call `c` (R98). The name bytes of a `T.open` follow, if it has any (42 R182). -/
def issue (c : Call) (s : State) : State :=
  log (.call c) { s with callWait := false, plWait := decide (0 < c.nameLength) }

/-- Accept a command: latch it and its opcode (R90, R39); no payload beat is taken, no call offered yet.
`OP` is written for every command, `SET_TIMING`, `CRC16` and `CRC_CHECK` included, whose own rules do not name it
(DEDUCED, notes/assumptions/30.md). -/
def accept (i : Instr) (s : State) : State :=
  log (.cmd i) { s with cmd := some i, op := i.opcode, plWait := false, plTaken := 0, plGood := true,
                        callWait := false }

/-- The command begins to take its payload beats (R92). -/
def awaitPayload (s : State) : State := { s with plWait := true, plTaken := 0, plGood := true }

/-- Take the answer of the outstanding transport call, when it is there (20_memory.md R65, R74). -/
def takeAnswer (f : Answer → State → Progress) (s : State) : Progress :=
  match s.answers with
  | [] => .blocked
  | a :: rest => f a { s with answers := rest }

/-- The contract of a read answer: `a_n` beats, at most `maxBytes` of them (R67, R99, R81 c). -/
def checkedRead (maxBytes : Nat) (a : Answer) (p : Progress) : Progress :=
  if a.bytes.length ≠ a.n.toNat then .refused .answerStreamLength
  else if maxBytes < a.bytes.length then .refused .readAnswerTooLong
  else p

/-- Offer a response record, with the value beats that will follow it (R95, R96, R17 `respond`). -/
def respond (status : Byte) (exc : Byte) (result : Half) (values : List Half) (s : State) : State :=
  { s with rspOut := some { status := status, exc := exc, result := result }, rvOut := values }

/-- The host takes the offered record (R95); with no value beat to follow the command is over. -/
def deliver (r : Response) (s : State) : State :=
  log (.rsp r) { s with rspOut := none, cmd := if s.rvOut = [] then none else s.cmd }

/-- The host takes the next value beat (R96). The last one ends the command and empties `VBUF` (R38; `V_LEN`
becoming 0 then is DEDUCED, notes/assumptions/11.md). -/
def deliverValue (v : Half) (rest : List Half) (s : State) : State :=
  log (.value v) { s with rvOut := rest, cmd := if rest = [] then none else s.cmd,
                          vLen := if rest = [] then 0 else s.vLen }

/-! ## Failures -/

/-- The failure path of an exchange (42 R202): `ERR`, `EXC`, `S_ERR_FLUSH`, and `reset()` (R201), which is one
flush of the transport and nothing else. -/
def failFlush (e : Status) (code : Byte) (s : State) : State :=
  offerCall { s with err := e.code, exc := code, st := .sErrFlush }

/-- A command fails (`fail e`, `raise e`; R277). After the write of an exchange (R275): the failure path, and the
response follows the flush's answer. Otherwise: the response at once, from the state the command is in. -/
def raise (e : Status) (code : Byte) (s : State) : State :=
  if s.st.inExchange then failFlush e code s
  else respond e.code code 0 [] s

/-- The end of a flushing failure (42 R202, R278): the flush is answered, `ST` returns to `S_IDLE` and the
response carries `ERR` and `EXC`. -/
def failReturn (_ : Answer) (s : State) : Progress :=
  .moved (respond s.err s.exc 0 [] (log (.reply .flushed) { s with st := .sIdle }))

end Sys2Proof.Machine
end

