-- ==== Sys2Proof/Machine/Crc.lean ====
section
/-! DEFINITION. Machine/Crc.lean: the CRC-16 engine (40_crc16.md R130 to R133). -/

namespace Sys2Proof.Machine

/-- One of the eight shifts of R130. -/
def crcShift (c : Half) : Half :=
  if c.getLsbD 0 then (c >>> 1) ^^^ Config.crcPoly else c >>> 1

/-- `n` shifts. -/
def crcShifts : Nat → Half → Half
  | 0, c => c
  | n + 1, c => crcShifts n (crcShift c)

/-- `crc16_update(c, x)` (R130): the byte enters the low half, then eight shifts. -/
def crcUpdate (c : Half) (x : Byte) : Half := crcShifts 8 (c ^^^ x.setWidth 16)

/-- The loop of R131, continued from the accumulator `c` (R138). -/
def crcFold (c : Half) (b : List Byte) : Half := b.foldl crcUpdate c

/-- `crc16(b)` (R131). -/
def crc16 (b : List Byte) : Half := crcFold Config.crcInit b

/-- `crc_append(b)` (R132): the CRC after the bytes, low byte first. -/
def crcAppend (b : List Byte) : List Byte := b ++ [lo8 (crc16 b), hi8 (crc16 b)]

/-- The bytes a trailer covers: all but the last two (R133). -/
def crcBody (b : List Byte) : List Byte := b.take (b.length - 2)

/-- `crc_check(b)` (R133), defined for two bytes or more; its callers test the length first. -/
def crcCheck (b : List Byte) : Option Bool :=
  if b.length < 2 then none
  else
    some (byteAt b (b.length - 2) == lo8 (crc16 (crcBody b))
      && byteAt b (b.length - 1) == hi8 (crc16 (crcBody b)))

end Sys2Proof.Machine
end

