-- ==== Sys2Proof/Machine/Codec.lean ====
section
/-! DEFINITION. Machine/Codec.lean: the frame codec (41_frame_codec.md) and the length of a response
from its own header (30_encoding.md R107). -/

namespace Sys2Proof.Machine

/-- The function codes of the two read commands (R152: an encoder takes a type, not a byte). -/
inductive ReadKind where
  | holding
  | input
  deriving DecidableEq, Repr

/-- The function code a read sends and expects (R8). -/
def ReadKind.fc : ReadKind → Byte
  | .holding => Config.fcReadHolding
  | .input => Config.fcReadInput

/-- `encode_read` (R150): the 8-byte read request of 30 R101. -/
def encodeRead (slave : Byte) (k : ReadKind) (start qty : Half) : List Byte :=
  crcAppend [slave, k.fc, hi8 start, lo8 start, hi8 qty, lo8 qty]

/-- The bytes of a write request before its CRC (R151, 30 R103). -/
def writeBody (slave : Byte) (start : Half) (vals : List Half) : List Byte :=
  [slave, Config.fcWriteHolding, hi8 start, lo8 start, hi8 (BitVec.ofNat 16 vals.length),
    lo8 (BitVec.ofNat 16 vals.length), lo8 (BitVec.ofNat 16 (2 * vals.length))]
    ++ valueBytes vals

/-- `encode_write` (R151): the `9 + 2k`-byte write request. Its domain is `k ≤ 123`; its caller tests it. -/
def encodeWrite (slave : Byte) (start : Half) (vals : List Half) : List Byte :=
  crcAppend (writeBody slave start vals)

/-- Why a frame is refused (R153). -/
inductive FrameError where
  | malformedFrame
  | checksumError
  | unexpectedResponse
  | slaveException (code : Byte)
  deriving DecidableEq, Repr

/-- The result of the frame decoder (R153). -/
inductive FrameResult where
  | values (vs : List Half)
  | echo (addr count : Half)
  | err (e : FrameError)
  deriving DecidableEq, Repr

/-- Decode step 6, the payload of a read response (R159). -/
def decodeValues (b : List Byte) : FrameResult :=
  if (byteAt b 2).toNat ≠ b.length - 5 ∨ (byteAt b 2).toNat % 2 = 1 then .err .malformedFrame
  else .values (valuesAt b 3 ((byteAt b 2).toNat / 2))

/-- Decode step 7, the echo of a write response (R160). -/
def decodeEcho (b : List Byte) : FrameResult :=
  if b.length ≠ 8 then .err .malformedFrame
  else .echo (be16 (byteAt b 2) (byteAt b 3)) (be16 (byteAt b 4) (byteAt b 5))

/-- `decode(b, expSlave, expFc)` (R153): length, CRC, slave, function, exception bit, structure; the first
that fails decides (R154 to R160). -/
def decodeFrame (b : List Byte) (expSlave expFc : Byte) : FrameResult :=
  if b.length < Config.minFrameLen then .err .malformedFrame
  else if crcCheck b ≠ some true then .err .checksumError
  else if byteAt b 0 ≠ expSlave then .err .unexpectedResponse
  else if byteAt b 1 &&& 0x7F#8 ≠ expFc then .err .unexpectedResponse
  else if byteAt b 1 &&& Config.excBit ≠ 0 then .err (.slaveException (byteAt b 2))
  else if expFc = Config.fcWriteHolding then decodeEcho b
  else decodeValues b

/-- The status a frame error becomes (43 R230). -/
def FrameError.status : FrameError → Status
  | .malformedFrame => .malformedFrame
  | .checksumError => .checksumError
  | .unexpectedResponse => .unexpectedResponse
  | .slaveException _ => .slaveExceptionError

/-- The exception code a frame error carries: only a slave exception has one (60 R260, 42 R202). -/
def FrameError.code : FrameError → Byte
  | .malformedFrame => 0
  | .checksumError => 0
  | .unexpectedResponse => 0
  | .slaveException c => c

/-- `flen(rx)` (30 R107): the length the bytes received so far announce, once known. -/
def flen (rx : List Byte) : Option Nat :=
  if rx.length < 2 then none
  else if byteAt rx 1 &&& Config.excBit ≠ 0 then some 5
  else if byteAt rx 1 = Config.fcReadHolding ∨ byteAt rx 1 = Config.fcReadInput then
    (if rx.length < 3 then none else some (5 + (byteAt rx 2).toNat))
  else if byteAt rx 1 = Config.fcWriteHolding then some 8
  else some 5

/-- `target(rx)` (30 R107): `flen` if known, else `minResponseBytes` (43 R235). -/
def target (rx : List Byte) : Nat := (flen rx).getD Config.minResponseBytes

end Sys2Proof.Machine
end

