-- ==== Sys2Proof/Machine/Session.lean ====
section
/-! DEFINITION. Machine/Session.lean: the bus session (42_bus_session.md): what each state of `ST` does
when its event comes (R180), and the begin of an exchange. -/

namespace Sys2Proof.Machine

/-! ## Opening and closing -/

/-- `T.close(HANDLE)` (R183, R190). -/
def closePort (s : State) : State := offerCall { s with st := .sClosing }

/-- `ST <- S_OPEN`; `T.open` (R182, R184). -/
def enterOpen (s : State) : State := offerCall { s with st := .sOpen }

/-- A byte of the name is forwarded: the payload beat is taken and its byte goes to the byte stream of `T.open` in
one transfer; nothing is stored but how many there have been (R182). The `n`-th is the last. -/
def forwardByte (n : Nat) (beat : Word) (rest : List Word) (s : State) : State :=
  log (.forward beat (beatByte beat))
    { s with payload := rest, plWait := decide (s.plTaken + 1 < n),
             plTaken := if s.plTaken + 1 < n then s.plTaken + 1 else 0 }

/-- The next byte of the name, when the host offers it and the transport takes it (R182, 30 R92, R98). -/
def forwardStep (n : Nat) (s : State) : Progress :=
  match s.payload with
  | [] => .blocked
  | beat :: rest => if s.twReady then .moved (forwardByte n beat rest s) else .blocked

/-- The close is answered (R180 rows `S_CLOSING`): `CONN_OPEN <- 0`; a `CONNECT` goes on to `S_OPEN`, a
`DISCONNECT` responds from `S_DISC`. -/
def closeAnswer (_ : Answer) (s : State) : Progress :=
  if s.op = 0x80#8 then
    .moved (enterOpen (log (.reply .closed) { s with connOpen := false }))
  else
    .moved (respond Status.ok.code 0 1 []
      (log (.reply .closed) { s with connOpen := false, st := .sDisc }))

/-- The serial attributes of the Connection, latched at a successful open (R185). -/
def latchAttributes (i : Option Instr) (s : State) : State :=
  match i with
  | some (.connect _ baud databits parity stopbits) =>
    { s with baud := baud, databits := databits, parity := parity, stopbits := stopbits }
  | some (.readHolding _ _ _) => s
  | some (.readInput _ _ _) => s
  | some (.writeHolding _ _ _) => s
  | some .disconnect => s
  | some (.setTiming _ _ _) => s
  | some (.crc16 _) => s
  | some (.crcCheck _) => s
  | none => s

/-- The open is answered (R180 rows `S_OPEN`, R184, R185, R261). -/
def openAnswer (a : Answer) (s : State) : Progress :=
  if a.ok then
    .moved (offerCall (latchAttributes s.cmd (log (.reply (openReply a))
      { s with handle := a.handle, connOpen := true, slave := 0, st := .sDrain })))
  else
    .moved (raise .connectionError 0 (log (.reply (openReply a)) { s with st := .sDisc }))

/-- A drain read is answered (R180 rows `S_DRAIN`, R187): the bytes are discarded; an empty answer ends the
drain and the settle wait begins, counted in `REM` (R188). -/
def drainAnswer (a : Answer) (s : State) : Progress :=
  checkedRead Config.drainBytes.toNat a
    (if a.bytes = [] then
      .moved (log (.reply (.drained a.bytes)) { s with st := .sSettle, rem := s.tSettle })
    else .moved (offerCall (log (.reply (.drained a.bytes)) s)))

/-- The settle wait (R188): one off `REM` per tick; at 0 the final flush is due (R189). -/
def settleStep (s : State) : Progress :=
  if s.rem = 0 then .moved (offerCall (log (.wait s.tSettle) { s with st := .sSyncFlush }))
  else if s.ticks = 0 then .blocked
  else .moved { s with rem := ticksLeft s.rem 1, ticks := s.ticks - 1 }

/-- The final flush is answered (R189): Connected, `OK` 1. -/
def syncFlushAnswer (_ : Answer) (s : State) : Progress :=
  .moved (respond Status.ok.code 0 1 [] (log (.reply .flushed) { s with st := .sIdle }))

/-! ## The exchange -/

/-- A request frame goes into `TXBUF` from index 0, its length into `TX_LEN`, and `CRC` ends at the CRC of its
body (41 R150, R151, 40 R132). A frame longer than the buffer is outside the primitive's domain (R17). -/
def loadRequest (frame : List Byte) (s : State) : Progress :=
  if frame.length ≤ Config.maxFrame then
    .moved { s with txbuf := s.txbuf.writeFrom 0 frame, txLen := BitVec.ofNat 9 frame.length,
                    crc := crc16 (crcBody frame) }
  else .fault .frameBufferIndex

/-- The exchange begins with the connection test and the write (R193, R194). -/
def beginExchange (slave : Byte) (s : State) : Progress :=
  if s.connOpen then .moved (offerCall { s with slave := slave, st := .sTx })
  else .moved (raise .notConnected 0 s)

/-- The `maxBytes` of the next response read, `target(rx) - RX_LEN` (R196). -/
def wanted (s : State) : Nat := target s.rx - s.rxLen.toNat

/-- The write is answered (R180 rows `S_TX`): the whole request written, the read phase begins (R194, R195);
anything else is `TransportWriteError` (60 R273). -/
def writeAnswer (a : Answer) (s : State) : Progress :=
  if a.ok ∧ a.n = s.txLen then
    .moved (offerCall (log (.reply (writeReply a))
      { s with rxLen := 0, rem := s.tResp, st := .sRx }))
  else .moved (raise .transportWriteError 0 (log (.reply (writeReply a)) s))

/-- After a non-empty answer is stored (R196 to R199): oversize, complete, out of time, or read on. -/
def afterBytes (s : State) : State :=
  match flen s.rx with
  | some n =>
    if Config.maxFrame < n then raise .malformedFrame 0 s
    else if s.rxLen.toNat = n then { s with st := .sCheck }
    else if s.rem = 0 then raise .transportTimeout 0 s
    else offerCall s
  | none => if s.rem = 0 then raise .transportTimeout 0 s else offerCall s

/-- A response read is answered (R180 rows `S_RX`, R196). -/
def readAnswer (a : Answer) (s : State) : Progress :=
  if Config.maxFrame < s.rxLen.toNat then .fault .frameBufferIndex
  else
    checkedRead (wanted s) a
      (if a.bytes = [] then
        .moved (raise .transportTimeout 0 (log (.reply (.data a.bytes a.dt)) s))
      else
        (appendRx a.bytes (log (.reply (.data a.bytes a.dt)) s)).andThen fun s =>
          .moved (afterBytes { s with rem := ticksLeft s.rem a.dt }))

/-- The CRC register after a frame has been decoded: the CRC of all but the trailer, where the length test
let the frame through (40 R131, R133; 41 R154, R155). -/
def checkCrc (b : List Byte) (s : State) : State :=
  if b.length < Config.minFrameLen then s else { s with crc := crc16 (crcBody b) }

/-- The dispatcher's test of a read's values (43 R231, R232): the count must be the one asked for. -/
def finishValues (vs : List Half) (s : State) : State :=
  if vs.length = s.reqCount.toNat then
    respond Status.ok.code 0 (s.vLen.setWidth 16) s.values { s with st := .sIdle }
  else raise .registerCountMismatch 0 s

/-- The dispatcher's test of a write's echo (43 R233): the echoed count must be the one sent. -/
def finishEcho (count : Half) (s : State) : State :=
  if count = s.reqCount then respond Status.ok.code 0 count [] { s with st := .sIdle }
  else raise .writeCountMismatch 0 s

/-- `S_CHECK` (R180, R200, 43 R230): decode, then the dispatcher's count test. -/
def checkStep (s : State) : Progress :=
  if Config.maxFrame < s.rxLen.toNat then .fault .frameBufferIndex
  else
    match decodeFrame s.rx s.slave s.expFc with
    | .values vs =>
      (loadValues vs (checkCrc s.rx s)).andThen fun s => .moved (finishValues vs s)
    | .echo _ count => .moved (finishEcho count (checkCrc s.rx s))
    | .err e => .moved (raise e.status e.code (checkCrc s.rx s))

/-! ## The call of each state -/

/-- `T.open` with the command's operands unchanged (R182, R184); of the name only its length, the bytes follow. -/
def openCall (i : Option Instr) : Option Call :=
  match i with
  | some (.connect n baud databits parity stopbits) => some (.openPort n baud databits parity stopbits)
  | some (.readHolding _ _ _) => none
  | some (.readInput _ _ _) => none
  | some (.writeHolding _ _ _) => none
  | some .disconnect => none
  | some (.setTiming _ _ _) => none
  | some (.crc16 _) => none
  | some (.crcCheck _) => none
  | none => none

/-- The transport call that belongs to the state `ST` is in (R180, column "what happens"; R183, R184, R187, R189,
R190, R194, R196, R201). -/
def State.portCall (s : State) : Option Call :=
  match s.st with
  | .sClosing => some (.close s.handle)
  | .sOpen => openCall s.cmd
  | .sDrain => some (.read s.handle Config.drainBytes s.tDrain)
  | .sSyncFlush => some (.flush s.handle)
  | .sTx => some (.write s.handle s.tx)
  | .sRx => some (.read s.handle (BitVec.ofNat 9 (wanted s)) s.rem)
  | .sErrFlush => some (.flush s.handle)
  | .sDisc => none
  | .sSettle => none
  | .sIdle => none
  | .sCheck => none

end Sys2Proof.Machine
end

