-- ==== Sys2Proof/Machine/Dispatcher.lean ====
section
/-! DEFINITION. Machine/Dispatcher.lean: the function dispatcher's part before an exchange
(43_function_dispatcher.md), the taking of payload beats (30_encoding.md R92), and what the two CRC commands do
with theirs (40_crc16.md R134, R135). -/

namespace Sys2Proof.Machine

/-- A read command (R231, R232): validate the count, latch, encode, begin the exchange. -/
def readRequest (k : ReadKind) (slave : Byte) (start : Half) (count : Nat) (s : State) : Progress :=
  if Config.maxReadCount < count then .moved (raise .tooManyRegisters 0 s)
  else
    (loadRequest (encodeRead slave k start (BitVec.ofNat 16 count))
      { s with expFc := k.fc, reqCount := BitVec.ofNat 16 count }).andThen (beginExchange slave)

/-- A write command whose beats are taken (R233), `good` when all its values were in range: the test of the count,
then of the values; the values are in `VBUF`; latch, encode, begin the exchange. -/
def writeRequest (slave : Byte) (start : Half) (count : Nat) (good : Bool) (s : State) : Progress :=
  if Config.maxWriteCount < count then .moved (raise .tooManyValues 0 s)
  else if good then
    (loadRequest (encodeWrite slave start (s.vbuf.readFrom 0 count))
      { s with vLen := BitVec.ofNat 8 count, expFc := Config.fcWriteHolding,
               reqCount := BitVec.ofNat 16 count }).andThen (beginExchange slave)
  else .moved (raise .invalidRegisterValue 0 s)

/-- `CRC <- 0xFFFF` (40 R134, R135), where the command computes a CRC at all: a `CRC_CHECK` of fewer than two
bytes does not (DEDUCED, notes/assumptions/12.md). -/
def initialCrc (i : Instr) (c : Half) : Half :=
  match i with
  | .crc16 _ => Config.crcInit
  | .crcCheck n => if n < 2 then c else Config.crcInit
  | .readHolding _ _ _ => c
  | .readInput _ _ _ => c
  | .writeHolding _ _ _ => c
  | .connect _ _ _ _ _ => c
  | .disconnect => c
  | .setTiming _ _ _ => c

/-- What beat `k` of a command's payload does to `CRC`: `CRC16` folds every byte (R134), `CRC_CHECK` all but the
two of the trailer (R135). -/
def beatCrc (i : Instr) (k : Nat) (beat : Word) (c : Half) : Half :=
  match i with
  | .crc16 _ => crcUpdate c (beatByte beat)
  | .crcCheck n => if k + 2 < n then crcUpdate c (beatByte beat) else c
  | .readHolding _ _ _ => c
  | .readInput _ _ _ => c
  | .writeHolding _ _ _ => c
  | .connect _ _ _ _ _ => c
  | .disconnect => c
  | .setTiming _ _ _ => c

/-- Whether beat `k` of a command's payload passes its test, where those before it did: a value of `WRITE_HOLDING`
is in range (43 R233; a count above 123 is tested first and its values never, 60 R269); the two bytes of a trailer
are the CRC, low byte first (40 R135). -/
def beatGood (i : Instr) (k : Nat) (beat : Word) (c : Half) (good : Bool) : Bool :=
  match i with
  | .writeHolding _ _ n => good && (decide (Config.maxWriteCount < n) || beatInRange beat)
  | .crcCheck n =>
    good && (decide (n < 2) || decide (k + 2 < n) ||
      decide (beatByte beat = if k + 2 = n then lo8 c else hi8 c))
  | .readHolding _ _ _ => good
  | .readInput _ _ _ => good
  | .connect _ _ _ _ _ => good
  | .disconnect => good
  | .setTiming _ _ _ => good
  | .crc16 _ => good

/-- What beat `k` of a command's payload stores in `VBUF` (10 R38): a value of `WRITE_HOLDING`, after its check,
while none before it has failed; with a count above 123 nothing (60 R269). Every other beat is stored nowhere
(40 R134, 42 R182). -/
def beatStore (i : Instr) (k : Nat) (beat : Word) (good : Bool) (m : Memory 16) : Memory 16 :=
  match i with
  | .writeHolding _ _ n =>
    if n ≤ Config.maxWriteCount ∧ good = true ∧ beatInRange beat = true then m.write k (beatValue beat) else m
  | .readHolding _ _ _ => m
  | .readInput _ _ _ => m
  | .connect _ _ _ _ _ => m
  | .disconnect => m
  | .setTiming _ _ _ => m
  | .crc16 _ => m
  | .crcCheck _ => m

/-- A CRC command begins to take its bytes. -/
def awaitBytes (i : Instr) (s : State) : State := awaitPayload { s with crc := initialCrc i s.crc }

/-- One payload beat is taken in a rest state (30 R92, 20 R63). -/
def takeBeat (i : Instr) (beat : Word) (rest : List Word) (s : State) : State :=
  log (.payload beat)
    { s with payload := rest, plTaken := s.plTaken + 1, crc := beatCrc i s.plTaken beat s.crc,
             plGood := beatGood i s.plTaken beat s.crc s.plGood,
             vbuf := beatStore i s.plTaken beat s.plGood s.vbuf }

/-- The payload of command `i`, `n` beats: the next one is taken, when the host offers it; once all are taken
the command goes on, knowing whether they passed their tests (R92). -/
def takePayload (i : Instr) (n : Nat) (f : Bool → State → Progress) (s : State) : Progress :=
  if s.plTaken < n then
    match s.payload with
    | [] => .blocked
    | beat :: rest => .moved (takeBeat i beat rest s)
  else f s.plGood { s with plWait := false, plTaken := 0, plGood := true }

/-- `CRC16` with its bytes folded (40 R134). -/
def crcAnswer (_ : Bool) (s : State) : Progress :=
  .moved (respond Status.ok.code 0 s.crc [] s)

/-- `CRC_CHECK` with its `n` bytes taken, `good` when the last two were the CRC of the others (40 R135). -/
def crcCheckAnswer (n : Nat) (good : Bool) (s : State) : Progress :=
  if n < 2 then .moved (raise .malformedFrame 0 s)
  else if good then .moved (respond Status.ok.code 0 1 [] s)
  else .moved (raise .checksumError 0 s)

end Sys2Proof.Machine
end

