-- ==== Sys2Proof/Machine/Engine.lean ====
section
/-! DEFINITION. Machine/Engine.lean: one transition of the engine (00_scope.md R13, 42_bus_session.md R180), the
acceptance of a command, and the reset. -/

namespace Sys2Proof.Machine

/-- The command in execution takes its next payload beat, or goes on with all of them (R92). -/
def payloadStep (s : State) : Progress :=
  match s.cmd with
  | some (.writeHolding slave start n) =>
    takePayload (.writeHolding slave start n) n (writeRequest slave start n) s
  | some (.connect n _ _ _ _) => forwardStep n s
  | some (.crc16 n) => takePayload (.crc16 n) n crcAnswer s
  | some (.crcCheck n) => takePayload (.crcCheck n) n (crcCheckAnswer n) s
  | some (.readHolding _ _ _) => .blocked
  | some (.readInput _ _ _) => .blocked
  | some .disconnect => .blocked
  | some (.setTiming _ _ _) => .blocked
  | none => .blocked

/-- The session state's own event (R180): an answer, the ticks of the settle wait, or the check. -/
def sessionStep (s : State) : Progress :=
  match s.st with
  | .sDisc => .blocked
  | .sIdle => .blocked
  | .sClosing => takeAnswer closeAnswer s
  | .sOpen => takeAnswer openAnswer s
  | .sDrain => takeAnswer drainAnswer s
  | .sSettle => settleStep s
  | .sSyncFlush => takeAnswer syncFlushAnswer s
  | .sTx => takeAnswer writeAnswer s
  | .sRx => takeAnswer readAnswer s
  | .sCheck => checkStep s
  | .sErrFlush => takeAnswer failReturn s

/-- The offered transport call is issued, when the transport takes it (30_encoding.md R98). -/
def callStep (s : State) : Progress :=
  if s.tReady then
    match s.portCall with
    | some c => .moved (issue c s)
    | none => .blocked
  else .blocked

/-- The engine's own work: the payload transfer in progress goes on, taken or forwarded; else an offered call is
issued; else the session state's event. -/
def workStep (s : State) : Progress :=
  if s.plWait then payloadStep s else if s.callWait then callStep s else sessionStep s

/-- One transition of a command in execution: one transfer on a port or one internal transition (R13), never
more (20_memory.md R63). While `rst` is 1 no transfer happens (70 R300); an offered response record is delivered
when the host takes it, then its value beats one by one; with nothing to deliver the engine works on. -/
def transition (s : State) : Progress :=
  if s.rst then .blocked
  else
    match s.rspOut, s.rvOut with
    | some r, _ => if s.rspReady then .moved (deliver r s) else .blocked
    | none, v :: rest => if s.rvReady then .moved (deliverValue v rest s) else .blocked
    | none, [] => workStep s

/-- The outcome of a transition from `s`: where the engine waits, `s` again (notes/assumptions/18.md). -/
def Progress.outcome (s : State) : Progress → Host.Outcome State Fault Refusal
  | .moved t => .next t
  | .blocked => .next s
  | .fault f => .fault f
  | .refused r => .refused r

/-- A command is presented: the engine accepts it only in a rest state with no command in execution (R181), and
does what its row of R180 says; otherwise the command waits and nothing changes (70 R305). -/
def command (i : Instr) (first : State → Progress) (s : State) : Host.Outcome State Fault Refusal :=
  if s.cmdReady then (first (accept i s)).outcome s else .next s

/-- A reserved opcode (30 R94, 60 R274): accepted, answered `IllegalCommand`, nothing else. -/
def illegalCommand (op : Byte) (s : State) : Host.Outcome State Fault Refusal :=
  .next (raise .illegalCommand 0 (log (.reserved op) s))

/-- What reset does (70 R300 to R302): every element takes its reset value and no call is issued; a call
outstanding is abandoned and its answer never arrives; the host's and the time base's inputs not yet taken
stay. -/
def hardReset (s : State) : State :=
  { State.reset with
    cmdIn := s.cmdIn
    payload := s.payload
    rspReady := s.rspReady
    rvReady := s.rvReady
    tReady := s.tReady
    twReady := s.twReady
    answers := if s.callOutstanding then s.answers.drop 1 else s.answers
    ticks := s.ticks
    trace := s.trace ++ [.rst] }

end Sys2Proof.Machine
end

