-- ==== Sys2Proof/Machine/CrcCommands.lean ====
section
/-! DEFINITION. Machine/CrcCommands.lean: `CRC16` and `CRC_CHECK` (40_crc16.md R134, R135). -/

namespace Sys2Proof.Machine

/-- `CRC16` (R134). -/
def execCrc16 (count : Nat) (s : State) : Host.Outcome State Fault Refusal :=
  command (.crc16 count) (fun s => .moved (awaitBytes (.crc16 count) s)) s

/-- `CRC_CHECK` (R135). -/
def execCrcCheck (count : Nat) (s : State) : Host.Outcome State Fault Refusal :=
  command (.crcCheck count) (fun s => .moved (awaitBytes (.crcCheck count) s)) s

end Sys2Proof.Machine
end

