-- ==== Sys2Proof/Machine/RegisterCommands.lean ====
section
/-! DEFINITION. Machine/RegisterCommands.lean: `READ_HOLDING`, `READ_INPUT`, `WRITE_HOLDING`
(43_function_dispatcher.md R231 to R233). -/

namespace Sys2Proof.Machine

/-- `READ_HOLDING` (R231). -/
def execReadHolding (slave : Byte) (start : Half) (count : Nat) (s : State) :
    Host.Outcome State Fault Refusal :=
  command (.readHolding slave start count) (readRequest .holding slave start count) s

/-- `READ_INPUT` (R232): the contract of `READ_HOLDING` with function code 0x04, the count test included. -/
def execReadInput (slave : Byte) (start : Half) (count : Nat) (s : State) :
    Host.Outcome State Fault Refusal :=
  command (.readInput slave start count) (readRequest .input slave start count) s

/-- `WRITE_HOLDING` (R233): all payload beats are taken, whatever follows. -/
def execWriteHolding (slave : Byte) (start : Half) (count : Nat) (s : State) :
    Host.Outcome State Fault Refusal :=
  command (.writeHolding slave start count) (fun s => .moved (awaitPayload s)) s

end Sys2Proof.Machine
end

