-- ==== Sys2Proof/Machine/SessionCommands.lean ====
section
/-! DEFINITION. Machine/SessionCommands.lean: `CONNECT`, `DISCONNECT`, `SET_TIMING`
(42_bus_session.md R182, R190, R191). -/

namespace Sys2Proof.Machine

/-- `CONNECT` (R182): an existing Connection is closed first (R183), then `T.open`. -/
def execConnect (count : Nat) (baud : Word) (databits parity stopbits : Byte) (s : State) :
    Host.Outcome State Fault Refusal :=
  command (.connect count baud databits parity stopbits)
    (fun s => .moved (if s.connOpen then closePort s else enterOpen s)) s

/-- `DISCONNECT` (R190): close if open, and succeed either way. -/
def execDisconnect (s : State) : Host.Outcome State Fault Refusal :=
  command .disconnect
    (fun s => .moved (if s.connOpen then closePort s else respond Status.ok.code 0 1 [] s)) s

/-- `SET_TIMING` (R191). -/
def execSetTiming (settle resp drain : Word) (s : State) : Host.Outcome State Fault Refusal :=
  command (.setTiming settle resp drain)
    (fun s => .moved (respond Status.ok.code 0 0 []
      { s with tSettle := settle, tResp := resp, tDrain := drain })) s

end Sys2Proof.Machine
end

