-- ==== Sys2Proof/Machine/Dispatch.lean ====
section
/-! DEFINITION. Machine/Dispatch.lean: the meaning of every command, one arm each. -/

namespace Sys2Proof.Machine

def exec (i : Instr) (s : State) : Host.Outcome State Fault Refusal :=
  match i with
  | .readHolding slave start count => Sys2Proof.Machine.execReadHolding slave start count s
  | .readInput slave start count => Sys2Proof.Machine.execReadInput slave start count s
  | .writeHolding slave start count => Sys2Proof.Machine.execWriteHolding slave start count s
  | .connect count baud databits parity stopbits => Sys2Proof.Machine.execConnect count baud databits parity stopbits s
  | .disconnect => Sys2Proof.Machine.execDisconnect s
  | .setTiming settle resp drain => Sys2Proof.Machine.execSetTiming settle resp drain s
  | .crc16 count => Sys2Proof.Machine.execCrc16 count s
  | .crcCheck count => Sys2Proof.Machine.execCrcCheck count s

end Sys2Proof.Machine
end

