-- ==== Sys2Proof/Machine/Fetch.lean ====
section
/-! DEFINITION. Machine/Fetch.lean: where the next command comes from: the command port
(30_encoding.md R90; the engine has no program counter and fetches no instructions, 10_state.md R22). -/

namespace Sys2Proof.Machine

/-- The command record the host presents, if any (R90). -/
def presented (s : State) : Option CmdRecord := s.cmdIn.head?

/-- The state once the presented record is accepted: it leaves the port (R90, 20_memory.md R78). -/
def consumeRecord (s : State) : State := { s with cmdIn := s.cmdIn.drop 1 }

/-- `s` ready to accept a command, with `r` presented first. In a rest state with no command in execution
and `rst` low only `cmdIn` changes. -/
def presentRecord (r : CmdRecord) (s : State) : State :=
  { s with cmdIn := r :: s.cmdIn, cmd := none, plWait := false, plTaken := 0, plGood := true,
           rspOut := none, rvOut := [], rst := false, callWait := false,
           st := if s.connOpen then .sIdle else .sDisc }

/-- The record of a table word (bits above `nbits` 0); the packed record always has its 27 bytes. -/
def recordOfWord (nbits w : Nat) : Option CmdRecord :=
  match CmdRecord.ofBytes (tableBytes nbits w) with
  | .ok r => some r
  | .error _ => none

end Sys2Proof.Machine
end

