-- ==== Sys2Proof/Machine/Step.lean ====
section
/-! DEFINITION. Machine/Step.lean: one step of the engine (notes/assumptions/1.md, 18.md, 20.md). -/

namespace Sys2Proof.Machine

/-- One step (00_scope.md R13): the reset input first (70 R300); in a rest state the presented command is
accepted (42 R181), a reserved opcode is answered `IllegalCommand` (30 R94), and with no command presented the
engine stays where it is (60 R286); a command in execution makes one transition, or waits. -/
def step (s : State) : Host.Outcome State Fault Refusal :=
  if s.rst then .next (hardReset s)
  else if s.cmdReady then
    match presented s with
    | none => .next s
    | some r =>
      match decodeRecord r with
      | .ok i => exec i (consumeRecord s)
      | .error _ => illegalCommand r.op (consumeRecord s)
  else (transition s).outcome s

/-- `s` with the table word's command presented on the command port, so that the very next step accepts and
runs it (notes/assumptions/20.md). -/
def State.withFetchWord (s : State) (nbits w : Nat) : State :=
  match recordOfWord nbits w with
  | some r => presentRecord r s
  | none => s

end Sys2Proof.Machine
end

