-- ==== Sys2Proof/Safety.lean ====
section
/-! DEFINITION. Safety.lean: the terms claims use: the invariant of the engine (10_state.md R24 and the
bounds of the buffers), the two disciplines of the port history (20_memory.md R74, R80), what is persistent
and what is scratch (R20), and how a response arrives in pieces (42 R196). -/

namespace Sys2Proof.Machine

/-! ## The state invariant -/

/-- The value `CONN_OPEN` has in each state of `ST` (R24, R180). -/
def SessionState.holdsConnection : SessionState → Bool
  | .sDisc => false
  | .sOpen => false
  | .sClosing => true
  | .sDrain => true
  | .sSettle => true
  | .sSyncFlush => true
  | .sIdle => true
  | .sTx => true
  | .sRx => true
  | .sCheck => true
  | .sErrFlush => true

/-- The three register commands (60 R260). -/
def Instr.isRegister : Instr → Bool
  | .readHolding _ _ _ => true
  | .readInput _ _ _ => true
  | .writeHolding _ _ _ => true
  | .connect _ _ _ _ _ => false
  | .disconnect => false
  | .setTiming _ _ _ => false
  | .crc16 _ => false
  | .crcCheck _ => false

/-- The commands that open or close the Connection. -/
def Instr.isConnection : Instr → Bool
  | .readHolding _ _ _ => false
  | .readInput _ _ _ => false
  | .writeHolding _ _ _ => false
  | .connect _ _ _ _ _ => true
  | .disconnect => true
  | .setTiming _ _ _ => false
  | .crc16 _ => false
  | .crcCheck _ => false

/-- `CONNECT`. -/
def Instr.isConnect : Instr → Bool
  | .readHolding _ _ _ => false
  | .readInput _ _ _ => false
  | .writeHolding _ _ _ => false
  | .connect _ _ _ _ _ => true
  | .disconnect => false
  | .setTiming _ _ _ => false
  | .crc16 _ => false
  | .crcCheck _ => false

/-- The commands that take their payload in a rest state, before anything else (R92). -/
def Instr.payloadAtRest : Instr → Bool
  | .readHolding _ _ _ => false
  | .readInput _ _ _ => false
  | .writeHolding _ _ _ => true
  | .connect _ _ _ _ _ => false
  | .disconnect => false
  | .setTiming _ _ _ => false
  | .crc16 _ => true
  | .crcCheck _ => true

/-- The two commands whose success delivers values (30_encoding.md R96). -/
def Instr.isRead : Instr → Bool
  | .readHolding _ _ _ => true
  | .readInput _ _ _ => true
  | .writeHolding _ _ _ => false
  | .connect _ _ _ _ _ => false
  | .disconnect => false
  | .setTiming _ _ _ => false
  | .crc16 _ => false
  | .crcCheck _ => false

/-- The statuses each command can answer with (60 R260, column "raised by"; 60 R276). -/
def Instr.statuses : Instr → List Status
  | .readHolding _ _ _ =>
    [.ok, .tooManyRegisters, .notConnected, .transportWriteError, .transportTimeout, .malformedFrame,
      .checksumError, .unexpectedResponse, .slaveExceptionError, .registerCountMismatch]
  | .readInput _ _ _ =>
    [.ok, .tooManyRegisters, .notConnected, .transportWriteError, .transportTimeout, .malformedFrame,
      .checksumError, .unexpectedResponse, .slaveExceptionError, .registerCountMismatch]
  | .writeHolding _ _ _ =>
    [.ok, .tooManyValues, .invalidRegisterValue, .notConnected, .transportWriteError, .transportTimeout,
      .malformedFrame, .checksumError, .unexpectedResponse, .slaveExceptionError, .writeCountMismatch]
  | .connect _ _ _ _ _ => [.ok, .connectionError]
  | .disconnect => [.ok]
  | .setTiming _ _ _ => [.ok]
  | .crc16 _ => [.ok]
  | .crcCheck _ => [.ok, .malformedFrame, .checksumError]

/-- Some command in execution satisfies `p`. -/
def State.cmdIs (s : State) (p : Instr → Bool) : Bool := s.cmd.any p

/-- Which command can be in execution in each state of `ST`, and what it is doing there (R180): in a rest state
it takes its payload, or its response waits to be delivered, or there is none. -/
def State.commandAgrees (s : State) : Bool :=
  match s.st with
  | .sDisc => if s.plWait then s.cmdIs Instr.payloadAtRest && s.quiet else s.cmd.isNone || !s.quiet
  | .sIdle => if s.plWait then s.cmdIs Instr.payloadAtRest && s.quiet else s.cmd.isNone || !s.quiet
  | .sClosing => s.cmdIs Instr.isConnection && s.quiet && !s.plWait
  | .sOpen => s.cmdIs Instr.isConnect && s.quiet
  | .sDrain => s.cmdIs Instr.isConnect && s.quiet && !s.plWait
  | .sSettle => s.cmdIs Instr.isConnect && s.quiet && !s.plWait
  | .sSyncFlush => s.cmdIs Instr.isConnect && s.quiet && !s.plWait
  | .sTx => s.cmdIs Instr.isRegister && s.quiet && !s.plWait
  | .sRx => s.cmdIs Instr.isRegister && s.quiet && !s.plWait
  | .sCheck => s.cmdIs Instr.isRegister && s.quiet && !s.plWait
  | .sErrFlush => s.cmdIs Instr.isRegister && s.quiet && !s.plWait

/-- The payload beats of a history since the last command was accepted, in order. -/
def beatsOf (tr : List Event) : List Word :=
  tr.foldl (init := []) fun beats e =>
    match e with
    | .cmd _ => []
    | .payload beat => beats ++ [beat]
    | .forward beat _ => beats ++ [beat]
    | .reserved _ => beats
    | .call _ => beats
    | .reply _ => beats
    | .wait _ => beats
    | .rsp _ => beats
    | .value _ => beats
    | .rst => beats

/-- The payload transfer in progress (30 R92): what the engine keeps of the beats taken is their number, no more than
the command has, and of `CRC16` and `CRC_CHECK` the CRC and the test of the trailer (40 R134, R135), of
`WRITE_HOLDING` the test of the values and the values in `VBUF` (43 R233, 10 R38), of `CONNECT` nothing (42 R182). -/
def State.payloadAgrees (s : State) : Prop :=
  (s.plWait = false → s.plTaken = 0 ∧ s.plGood = true) ∧
  (s.plWait = true → s.plTaken = (beatsOf s.trace).length ∧
    (∀ i n, s.cmd = some i → i.count? = some n → s.plTaken ≤ n ∧ (s.st = .sOpen → s.plTaken < n)) ∧
    (∀ n, s.cmd = some (.crc16 n) → s.crc = crc16 ((beatsOf s.trace).map beatByte)) ∧
    (∀ n, s.cmd = some (.crcCheck n) → 2 ≤ n →
      s.crc = crc16 (((beatsOf s.trace).take (n - 2)).map beatByte) ∧
      s.plGood = (((beatsOf s.trace).drop (n - 2)).map beatByte).isPrefixOf [lo8 s.crc, hi8 s.crc]) ∧
    ∀ slave start n, s.cmd = some (.writeHolding slave start n) → n ≤ Config.maxWriteCount →
      s.plGood = (beatsOf s.trace).all beatInRange ∧
      (s.plGood = true → s.vbuf.readFrom 0 s.plTaken = (beatsOf s.trace).map beatValue))

/-- The transport call still to be issued (30 R98): only in a state that waits for an answer; and the name is
forwarded after `T.open` is issued (42 R182). -/
def State.callAgrees (s : State) : Prop :=
  (s.callWait = true → s.st.awaitsAnswer = true) ∧ (s.st = .sOpen → s.plWait = true → s.callWait = false)

/-- What a response may carry (60 R260, 30 R95): a status of the table; an exception code with
`SlaveExceptionError` only; a result with `OK` only. -/
def Response.legal (r : Response) : Bool :=
  decide (r.status.toNat ≤ 14)
    && (decide (r.exc = 0) || decide (r.status = Status.slaveExceptionError.code))
    && (decide (r.status = Status.ok.code) || decide (r.result = 0))

/-- How many value beats follow a record (30 R96): `rsp_result` of them after the `OK` of a read, else none. -/
def valuesAfter (read : Bool) (r : Response) : Nat :=
  if read = true ∧ r.status = Status.ok.code then r.result.toNat else 0

/-- The response offered (30 R95, R96; 60 R260): a legal record with a status of the command in execution,
followed by as many beats as it says. -/
def State.responseAgrees (s : State) : Prop :=
  ∀ r, s.rspOut = some r → r.legal = true ∧
    s.rvOut.length = valuesAfter (s.cmdIs Instr.isRead) r ∧
    ∀ i, s.cmd = some i → ∃ e ∈ Instr.statuses i, r.status = e.code

/-- The value beats still to come (30 R96, 43 R236): the rest of `VBUF[0..V_LEN)`, of a read that succeeded. -/
def State.valuesAgree (s : State) : Prop :=
  s.rvOut ≠ [] → s.st = .sIdle ∧ s.cmdIs Instr.isRead = true ∧
    s.rvOut = s.values.drop (s.vLen.toNat - s.rvOut.length)

/-- The failure being flushed (42 R202): an error of the command in execution, with an exception code for a slave
exception only. -/
def State.failureAgrees (s : State) : Prop :=
  s.st = .sErrFlush → ∀ i, s.cmd = some i →
    ∃ e ∈ Instr.statuses i, e ≠ .ok ∧ s.err = e.code ∧ (s.exc = 0 ∨ e = .slaveExceptionError)

/-- The request of an exchange (41 R150, R151): eight bytes for a read, `9 + 2n` for a write of `n ≤ 123` values. -/
def State.requestAgrees (s : State) : Prop :=
  s.st = .sTx → ∀ i n, s.cmd = some i → i.count? = some n →
    (Instr.isRead i = true → s.txLen = 8) ∧ (Instr.isRead i = false → n ≤ 123 ∧ s.txLen.toNat = 9 + 2 * n)

/-- The progress of a response in the receive buffer (42 R196, R197). -/
def State.receiveAgrees (s : State) : Prop :=
  (s.st = .sRx → s.rxLen.toNat < target s.rx ∧ target s.rx ≤ Config.maxFrame) ∧
  (s.st = .sCheck → flen s.rx = some s.rxLen.toNat)

/-- The invariant of the engine. -/
structure Inv (s : State) : Prop where
  /-- R24: `CONN_OPEN` agrees with `ST`. -/
  conn : s.connOpen = s.st.holdsConnection
  /-- R180: the command in execution agrees with `ST`. -/
  command : s.commandAgrees = true
  /-- R39: the command in execution is one a record can carry, and `OP` is its opcode. -/
  opcode : ∀ i, s.cmd = some i → i.wf = true ∧ s.op = i.opcode
  /-- R35: the request frame fits its buffer. -/
  txFits : s.txLen.toNat ≤ Config.maxFrame
  /-- 41 R152: the request to be written has the length of the command's request. -/
  request : s.requestAgrees
  /-- R36: the response frame fits its buffer. -/
  rxFits : s.rxLen.toNat ≤ Config.maxFrame
  /-- R38: the values fit their buffer. -/
  vFits : s.vLen.toNat ≤ Config.maxReadCount
  /-- R196, R197: the receive buffer never runs past its target. -/
  receive : s.receiveAgrees
  /-- R39, R93: in an exchange the response must carry the command's own function code, and the count asked for
  is the command's. -/
  expected : s.st.inExchange = true → s.expFc = s.op ∧
    ∀ i n, s.cmd = some i → i.count? = some n → s.reqCount = BitVec.ofNat 16 n
  /-- R92: the payload transfer in progress. -/
  payload : s.payloadAgrees
  /-- R98: the transport call still to be issued. -/
  call : s.callAgrees
  /-- R202: the failure being flushed. -/
  failure : s.failureAgrees
  /-- R95, R260: the response offered. -/
  response : s.responseAgrees
  /-- R96: the value beats still to come. -/
  values : s.valuesAgree
  /-- The buffers are in canonical form and within their indices (R41). -/
  txMem : s.txbuf.wf ∧ s.txbuf.below Config.maxFrame
  /-- The same for `RXBUF`. -/
  rxMem : s.rxbuf.wf ∧ s.rxbuf.below Config.maxFrame
  /-- The same for `VBUF`. -/
  vMem : s.vbuf.wf ∧ s.vbuf.below Config.maxReadCount

/-! ## Disciplines of the port history -/

/-- The handle the transport holds open for the engine after one more event: `none` once the discipline of
20_memory.md R80 is broken, `some none` when no handle is open. A reset forgets the handle (70 R302). -/
def handleAfter (h : Option (Option Byte)) (e : Event) : Option (Option Byte) :=
  match h with
  | none => none
  | some live =>
    match e with
    | .call (.openPort _ _ _ _ _) => if live = none then some none else none
    | .reply (.opened x) => if live = none then some (some x) else none
    | .call (.read x _ _) => if live = some x then some live else none
    | .call (.write x _) => if live = some x then some live else none
    | .call (.flush x) => if live = some x then some live else none
    | .call (.close x) => if live = some x then some none else none
    | .rst => some none
    | .cmd _ => some live
    | .reserved _ => some live
    | .payload _ => some live
    | .forward _ _ => some live
    | .reply .transportError => some live
    | .reply (.written _) => some live
    | .reply (.drained _) => some live
    | .reply (.data _ _) => some live
    | .reply .flushed => some live
    | .reply .closed => some live
    | .wait _ => some live
    | .rsp _ => some live
    | .value _ => some live

/-- The handle open after a history. -/
def liveHandle (tr : List Event) : Option (Option Byte) := tr.foldl handleAfter (some none)

/-- The handle the engine's own state says is open: between the issue of `T.close` and its answer the handle
is dead already (R70). -/
def State.ownedHandle (s : State) : Option Byte :=
  if s.connOpen && (decide (s.st ≠ .sClosing) || s.callWait) then some s.handle else none

/-- R80: the history keeps the handle discipline and ends with the handle the state owns. -/
def HandlesKept (s : State) : Prop := liveHandle s.trace = some s.ownedHandle

/-- What the ports are doing: no command; a command in execution; a number of bytes of the name still to follow a
`T.open`; a transport call outstanding, its stream complete; a number of value beats still to follow the record.
Which command is in execution matters for the values only. -/
inductive PortPhase where
  | rest
  | busy (read : Bool)
  | naming (read : Bool) (left : Nat)
  | outstanding (read : Bool)
  | streaming (left : Nat)
  deriving DecidableEq, Repr

/-- A call issued with `n` bytes of a name to follow. -/
def PortPhase.issued (read : Bool) (n : Nat) : PortPhase := if n = 0 then .outstanding read else .naming read n

/-- A phase with `n` value beats to come. -/
def PortPhase.after (n : Nat) : PortPhase := if n = 0 then .rest else .streaming n

/-- The phase after one more event: `none` once the order of R74, R90, R95, R96, R98 and R99 is broken. -/
def phaseAfter (p : Option PortPhase) (e : Event) : Option PortPhase :=
  match e with
  | .rst => if p = none then none else some .rest
  | .cmd i => if p = some .rest then some (.busy (Instr.isRead i)) else none
  | .reserved _ => if p = some .rest then some (.busy false) else none
  | .payload _ =>
    match p with
    | some (.busy read) => some (.busy read)
    | _ => none
  | .call c =>
    match p with
    | some (.busy read) => some (PortPhase.issued read c.nameLength)
    | _ => none
  | .forward beat byte =>
    match p with
    | some (.naming read left) =>
      if byte = beatByte beat then some (PortPhase.issued read (left - 1)) else none
    | _ => none
  | .reply _ =>
    match p with
    | some (.outstanding read) => some (.busy read)
    | _ => none
  | .wait _ =>
    match p with
    | some (.busy read) => some (.busy read)
    | _ => none
  | .rsp r =>
    match p with
    | some (.busy read) => some (PortPhase.after (valuesAfter read r))
    | _ => none
  | .value _ =>
    match p with
    | some (.streaming n) => some (PortPhase.after (n - 1))
    | _ => none

/-- The phase after a history. -/
def portPhase (tr : List Event) : Option PortPhase := tr.foldl phaseAfter (some .rest)

/-- The phase the engine's own state says it is in. -/
def State.phase (s : State) : PortPhase :=
  if s.rspOut = none ∧ s.rvOut ≠ [] then .streaming s.rvOut.length
  else if s.naming then .naming (s.cmdIs Instr.isRead) s.plLeft
  else if s.callOutstanding then .outstanding (s.cmdIs Instr.isRead)
  else if s.busy then .busy (s.cmdIs Instr.isRead)
  else .rest

/-- R74, R90, R95, R96, R98, R99: one command at a time, one response record per command with as many value beats as
it says, one transport call outstanding, each answered before the next, a `T.open` after exactly the bytes of its
name, each byte that of its payload beat (42 R182). -/
def PortsOrdered (s : State) : Prop := portPhase s.trace = some s.phase

/-- How far the exchange of the command in execution has gone: no `T.write` yet, one, or one and then the
flush of a failure. -/
inductive ExchangePhase where
  | noWrite
  | written
  | flushed
  deriving DecidableEq, Repr

/-- The phase after one more event: `none` once 42 R202, R203 or 60 R275 is broken: a second write in one
command, a second flush after a write, an `OK` after a flush that followed a write, or a failure response
after a write with no flush between. -/
def exchangeAfter (p : Option ExchangePhase) (e : Event) : Option ExchangePhase :=
  match p with
  | none => none
  | some ph =>
    match e with
    | .rst => some .noWrite
    | .cmd _ => if ph = .noWrite then some .noWrite else none
    | .reserved _ => if ph = .noWrite then some .noWrite else none
    | .call (.write _ _) => if ph = .noWrite then some .written else none
    | .call (.flush _) =>
      if ph = .noWrite then some .noWrite else if ph = .written then some .flushed else none
    | .rsp r =>
      if ph = .noWrite then some .noWrite
      else if ph = .written ∧ r.status = Status.ok.code then some .noWrite
      else if ph = .flushed ∧ r.status ≠ Status.ok.code then some .noWrite
      else none
    | .call (.openPort _ _ _ _ _) => some ph
    | .call (.read _ _ _) => some ph
    | .call (.close _) => some ph
    | .payload _ => some ph
    | .forward _ _ => some ph
    | .reply _ => some ph
    | .wait _ => some ph
    | .value _ => some ph

/-- The exchange phase after a history. -/
def exchangePhase (tr : List Event) : Option ExchangePhase := tr.foldl exchangeAfter (some .noWrite)

/-- Which exchange phases the engine's own state allows. -/
def State.exchangeAllowed (s : State) (ph : ExchangePhase) : Bool :=
  match s.st, s.rspOut with
  | .sTx, _ => decide (ph = if s.callWait then .noWrite else .written)
  | .sRx, _ => decide (ph = .written)
  | .sCheck, _ => decide (ph = .written)
  | .sErrFlush, _ => decide (ph = if s.callWait then .written else .flushed)
  | .sIdle, some r =>
    decide (ph = .noWrite ∨ (ph = .written ∧ r.status = Status.ok.code) ∨
      (ph = .flushed ∧ r.status ≠ Status.ok.code))
  | _, _ => decide (ph = .noWrite)

/-- 42 R202, R203, 60 R275: the history keeps the write and flush discipline and ends in a phase the state
allows. -/
def FlushesKept (s : State) : Prop :=
  ∃ ph, exchangePhase s.trace = some ph ∧ s.exchangeAllowed ph = true

/-! ## Persistent and scratch state (R20) -/

/-- The state with every scratch element at one fixed value: what is left is persistent, an input, or the
history. -/
def State.withoutScratch (s : State) : State :=
  { s with op := 0, crc := 0, txbuf := [], txLen := 0, rxbuf := [], rxLen := 0, rem := 0,
           vbuf := [], vLen := 0, expFc := 0, reqCount := 0, err := 0, exc := 0 }

/-- The engine has no command in execution, no payload transfer and no call to issue, and waits for a command
(R181). -/
def State.atRest (s : State) : Prop :=
  s.cmdReady = true ∧ s.plWait = false ∧ s.plTaken = 0 ∧ s.plGood = true ∧ s.callWait = false

/-! ## A response arriving in pieces (42 R196) -/

/-- The answers are pieces of `frame` after the bytes `got`, with `rem` ticks left: each is non-empty, keeps
the contract of its read, and the frame is complete with the last one, the time not having run out before. -/
def Pieces (frame : List Byte) (got : List Byte) (rem : Word) : List Answer → Prop
  | [] => False
  | a :: more =>
    a.bytes ≠ [] ∧ a.bytes.length = a.n.toNat ∧ a.bytes.length ≤ target got - got.length ∧
    (if more = [] then got ++ a.bytes = frame
     else (∃ rest, rest ≠ [] ∧ got ++ a.bytes ++ rest = frame) ∧ ticksLeft rem a.dt ≠ 0 ∧
       Pieces frame (got ++ a.bytes) (ticksLeft rem a.dt) more)

/-- The history of reading those pieces through handle `h`. -/
def piecesEvents (h : Byte) (got : List Byte) (rem : Word) : List Answer → List Event
  | [] => []
  | a :: more =>
    .call (.read h (BitVec.ofNat 9 (target got - got.length)) rem) :: .reply (.data a.bytes a.dt)
      :: piecesEvents h (got ++ a.bytes) (ticksLeft rem a.dt) more

/-- The ticks left after those pieces. -/
def piecesRem (rem : Word) : List Answer → Word
  | [] => rem
  | a :: more => piecesRem (ticksLeft rem a.dt) more

/-- The answers a drain discards (42 R187): each keeps the contract of its read and is not empty. -/
def Drained (ds : List Answer) : Prop :=
  ∀ a ∈ ds, a.bytes ≠ [] ∧ a.bytes.length = a.n.toNat ∧ a.bytes.length ≤ Config.drainBytes.toNat

/-- The history of a drain through handle `h`: the answers that were not empty. -/
def drainEvents (h : Byte) (timeout : Word) : List Answer → List Event
  | [] => []
  | a :: more =>
    .reply (.drained a.bytes) :: .call (.read h Config.drainBytes timeout) :: drainEvents h timeout more

/-! ## Words of the statements -/

/-- Steps of the machine lead from `s` to `t`. -/
def StepsTo (s t : State) : Prop := ∃ n, Host.Core.run Sys2Proof.core n s = .next t

/-- `exec` of command `i` at `s` answers a next state (it is accepted), and the machine's own steps lead from there
to `t`. -/
def Completes (i : Instr) (s t : State) : Prop := ∃ u, exec i s = .next u ∧ StepsTo u t

/-- `exec` of command `i` at `s` answers a next state, the machine's own steps lead from there to `t`, and there
the engine waits: a step changes nothing. -/
def WaitsAt (i : Instr) (s t : State) : Prop := Completes i s t ∧ step t = .next t

/-- The engine waits for a command and the host takes responses (30_encoding.md R90, R95). -/
def State.accepts (s : State) : Prop := s.atRest ∧ s.rspReady = true

/-- The engine is in state `x` of `ST`, runs (no reset) and waits neither for payload, nor for the host, nor for the
issue of its transport call. -/
def State.inState (s : State) (x : SessionState) : Prop :=
  s.st = x ∧ s.plWait = false ∧ s.callWait = false ∧ s.quiet = true ∧ s.rst = false

/-- What the engine can wait for (30_encoding.md R90 to R99, 42 R188): a command, the host to take a record or a
value, a payload beat, the transport to take a call or a byte of a name or to answer a call, a tick. -/
def State.Waits (s : State) : Prop :=
  (s.cmdReady = true ∧ s.cmdIn = []) ∨
  (s.rspValid = true ∧ s.rspReady = false) ∨
  (s.rvValid = true ∧ s.rvReady = false) ∨
  (s.plWanted = true ∧ s.payload = []) ∨
  (s.tValid = true ∧ s.tReady = false) ∨
  (s.twValid = true ∧ s.twReady = false) ∨
  (s.aReady = true ∧ s.answers = []) ∨
  (s.st = .sSettle ∧ s.rem ≠ 0 ∧ s.ticks = 0)

/-- `s` with inputs that arrive later: command records, payload beats, answers and ticks. -/
def State.withMore (s : State) (records : List CmdRecord) (beats : List Word) (answers : List Answer)
    (ticks : Nat) : State :=
  { s with cmdIn := s.cmdIn ++ records, payload := s.payload ++ beats, answers := s.answers ++ answers,
           ticks := s.ticks + ticks }

/-- The read command of each kind (43 R231, R232). -/
def ReadKind.command (k : ReadKind) (slave : Byte) (start : Half) (count : Nat) : Instr :=
  match k with
  | .holding => .readHolding slave start count
  | .input => .readInput slave start count

/-- The record of a success (30 R95). -/
def Response.success (result : Half) : Response := { status := Status.ok.code, exc := 0, result := result }

/-- The record of a failure (60 R260): no result. -/
def Response.failure (e : Status) (code : Byte) : Response := { status := e.code, exc := code, result := 0 }

/-- What latching a request and encoding it leaves (43 R231, R233; 41 R150, R151). -/
def State.withRequest (s : State) (fc : Byte) (count : Nat) (frame : List Byte) : State :=
  { s with expFc := fc, reqCount := BitVec.ofNat 16 count, txbuf := s.txbuf.writeFrom 0 frame,
           txLen := BitVec.ofNat 9 frame.length, crc := crc16 (crcBody frame) }

/-- What storing values leaves (10 R38). -/
def State.withValues (s : State) (vs : List Half) : State :=
  { s with vbuf := s.vbuf.writeFrom 0 vs, vLen := BitVec.ofNat 8 vs.length }

/-- What receiving a whole frame and checking its CRC leaves (42 R196; 40 R133). -/
def State.withFrame (s : State) (frame : List Byte) (left : Word) : State :=
  { s with rxbuf := s.rxbuf.writeFrom 0 frame, rxLen := BitVec.ofNat 9 frame.length, rem := left,
           crc := crc16 (crcBody frame) }

/-- A flushed failure of a register command, from the state it failed in (42 R202, 60 R277 a). -/
def State.flushedFailure (s : State) (e : Status) (code : Byte) (rest : List Answer) : State :=
  { s with st := .sIdle, err := e.code, exc := code, cmd := none, answers := rest,
           trace := s.trace ++ [.call (.flush s.handle), .reply .flushed, .rsp (Response.failure e code)] }

/-- The close of the old Connection in a `CONNECT` (42 R183). -/
def State.closeEvents (s : State) : List Event :=
  if s.connOpen then [.call (.close s.handle), .reply .closed] else []

/-- The history of forwarding a name to `T.open`, byte by byte (42 R182). -/
def nameEvents (beats : List Word) : List Event := beats.map fun beat => .forward beat (beatByte beat)

/-- `b` with bit `j` of byte `i` inverted. -/
def flipBit (b : List Byte) (i j : Nat) : List Byte := b.set i (byteAt b i ^^^ (1#8 <<< j))

/-- The read response of `vs` (30 R102). -/
def readResponse (slave : Byte) (k : ReadKind) (vs : List Half) : List Byte :=
  crcAppend ([slave, k.fc, BitVec.ofNat 8 (2 * vs.length)] ++ valueBytes vs)

/-- The write response (30 R104). -/
def writeResponse (slave : Byte) (start count : Half) : List Byte :=
  crcAppend [slave, 0x10#8, hi8 start, lo8 start, hi8 count, lo8 count]

/-- The `maxBytes` of the read outstanding in `S_DRAIN` or `S_RX` (42 R187, R196). -/
def State.asked (s : State) : Nat := if s.st = .sDrain then Config.drainBytes.toNat else wanted s

/-- The persistent registers command `i` may write between `s` and `t` (10 R25 to R33): `CONN_OPEN` only `CONNECT`
and `DISCONNECT`, `HANDLE` and the attributes only `CONNECT`, the timers only `SET_TIMING`, `SLAVE` only `CONNECT` and
the register commands, `ST` not `SET_TIMING`, `CRC16`, `CRC_CHECK`. -/
def WritesOnly (i : Instr) (s t : State) : Prop :=
  (Instr.isConnection i = false → t.connOpen = s.connOpen) ∧
  (Instr.isConnect i = false →
    t.handle = s.handle ∧ t.baud = s.baud ∧ t.databits = s.databits ∧ t.parity = s.parity ∧
    t.stopbits = s.stopbits) ∧
  ((∀ settle resp drain, i ≠ .setTiming settle resp drain) →
    t.tSettle = s.tSettle ∧ t.tResp = s.tResp ∧ t.tDrain = s.tDrain) ∧
  (Instr.isRegister i = false → Instr.isConnect i = false → t.slave = s.slave) ∧
  (Instr.isRegister i = false → Instr.isConnection i = false → t.st = s.st)

/-- The cells command `i` may store to in one step from `s` to `t` (20 R60; 10 R35, R36, R38): those of its request,
of the bytes received in that step and of the values; every other cell reads as before. -/
def StoresOnly (i : Instr) (s t : State) : Prop :=
  (∀ (k : ReadKind) (slave : Byte) (start : Half) (n : Nat), i = k.command slave start n →
    (∀ a, 8 ≤ a → t.txbuf.read a = s.txbuf.read a) ∧
    (∀ a, a < s.rxLen.toNat ∨ t.rxLen.toNat ≤ a → t.rxbuf.read a = s.rxbuf.read a) ∧
    (∀ a, (t.rxLen.toNat - 5) / 2 ≤ a → t.vbuf.read a = s.vbuf.read a)) ∧
  (∀ (slave : Byte) (start : Half) (n : Nat), i = .writeHolding slave start n →
    (∀ a, 9 + 2 * n ≤ a → t.txbuf.read a = s.txbuf.read a) ∧
    (∀ a, a < s.rxLen.toNat ∨ t.rxLen.toNat ≤ a → t.rxbuf.read a = s.rxbuf.read a) ∧
    (∀ a, n ≤ a → t.vbuf.read a = s.vbuf.read a)) ∧
  (Instr.isRegister i = false →
    ∀ a, t.txbuf.read a = s.txbuf.read a ∧ t.rxbuf.read a = s.rxbuf.read a ∧
      t.vbuf.read a = s.vbuf.read a)

/-- Every response record logged between `s` and `t`, or offered in `t`, has a status of command `i` (60 R260). -/
def AnswersOnly (i : Instr) (s t : State) : Prop :=
  (∃ new, t.trace = s.trace ++ new ∧ ∀ r, Event.rsp r ∈ new → ∃ e ∈ Instr.statuses i, r.status = e.code) ∧
  ∀ r, t.rspOut = some r → ∃ e ∈ Instr.statuses i, r.status = e.code

end Sys2Proof.Machine
end

