-- ==== Sys2Proof/Certificates/Slice0/Obligations.lean ====
section
/-! DEFINITION. Certificates/Slice0/Obligations.lean: the statements for the provers. A record update names
every field that changes: every field it does not name is as before. -/

open Sys2Proof Sys2Proof.Machine

/-! ## Encoding -/

/-- The decoder reads back every well-formed command from its packed record. The packing of the record into
bytes is the model's (notes/assumptions/3.md). -/
def Obligations.DecodeOfEncodeIsTheInstruction : Prop :=
  ∀ i : Instr, i.wf = true → decode (encode i) = .ok i

/-- Whatever record decodes, its command is well formed, its first byte is the command's opcode and the
command's own record decodes to the same command (notes/assumptions/3.md for the packing). -/
def Obligations.DecodedInstructionReencodes : Prop :=
  ∀ (bytes : List Byte) (i : Instr), decode bytes = .ok i →
    i.wf = true ∧ bytes.length = 27 ∧ bytes.head? = some i.opcode ∧ decode (encode i) = .ok i

/-- 30 R93: `cmd_op` selects the command, with the operands of R91. -/
def Obligations.OpcodeSelectsTheCommand : Prop :=
  ∀ r : CmdRecord,
    (r.op = 0x03#8 → decodeRecord r = .ok (.readHolding r.slave r.start r.count.toNat)) ∧
    (r.op = 0x04#8 → decodeRecord r = .ok (.readInput r.slave r.start r.count.toNat)) ∧
    (r.op = 0x10#8 → decodeRecord r = .ok (.writeHolding r.slave r.start r.count.toNat)) ∧
    (r.op = 0x80#8 →
      decodeRecord r = .ok (.connect r.count.toNat r.baud r.databits r.parity r.stopbits)) ∧
    (r.op = 0x81#8 → decodeRecord r = .ok .disconnect) ∧
    (r.op = 0x82#8 → decodeRecord r = .ok (.setTiming r.tSettle r.tResp r.tDrain)) ∧
    (r.op = 0x90#8 → decodeRecord r = .ok (.crc16 r.count.toNat)) ∧
    (r.op = 0x91#8 → decodeRecord r = .ok (.crcCheck r.count.toNat))

/-- Words of the opcode table, written out, and one reserved word. -/
def Obligations.WrittenOutWordsDecode : Prop :=
  decodeTableWord 8 0x03 = some (.readHolding 0 0 0) ∧
  decodeTableWord 8 0x10 = some (.writeHolding 0 0 0) ∧
  decodeTableWord 8 0x82 = some (.setTiming 0 0 0) ∧
  decodeTableWord 8 0x91 = some (.crcCheck 0) ∧
  decodeTableWord 216 0x0000000400000103 = some (.readHolding 1 0 4) ∧
  decodeTableWord 8 0x06 = none

/-- 30 R91: a field a command does not use is ignored. -/
def Obligations.UnusedFieldsAreIgnored : Prop :=
  ∀ (r : CmdRecord) (slave databits parity stopbits : Byte) (start : Half)
    (count baud settle resp drain : Word),
    (r.op ∈ [0x03#8, 0x04#8, 0x10#8] →
      decodeRecord { r with baud := baud, databits := databits, parity := parity, stopbits := stopbits,
                            tSettle := settle, tResp := resp, tDrain := drain } = decodeRecord r) ∧
    (r.op = 0x80#8 →
      decodeRecord { r with slave := slave, start := start, tSettle := settle, tResp := resp,
                            tDrain := drain } = decodeRecord r) ∧
    (r.op = 0x82#8 →
      decodeRecord { r with slave := slave, start := start, count := count, baud := baud,
                            databits := databits, parity := parity, stopbits := stopbits } =
        decodeRecord r) ∧
    (r.op ∈ [0x90#8, 0x91#8] →
      decodeRecord { r with slave := slave, start := start, baud := baud, databits := databits,
                            parity := parity, stopbits := stopbits, tSettle := settle, tResp := resp,
                            tDrain := drain } = decodeRecord r) ∧
    (r.op = 0x81#8 → ∀ q : CmdRecord, q.op = r.op → decodeRecord q = decodeRecord r)

/-- 30 R94, 60 R274: a reserved opcode is accepted, takes no payload, changes no state, issues no call and is
answered `IllegalCommand`; with the response taken the engine is where it was. -/
def Obligations.ReservedOpcodeAnswersIllegalCommand : Prop :=
  ∀ (s : State) (r : CmdRecord) (rest : List CmdRecord), s.accepts →
    s.cmdIn = r :: rest →
    r.op ∉ [0x03#8, 0x04#8, 0x10#8, 0x80#8, 0x81#8, 0x82#8, 0x90#8, 0x91#8] →
    let u := { s with
      cmdIn := rest
      rspOut := some (Response.failure .illegalCommand 0)
      trace := s.trace ++ [.reserved r.op] }
    step s = .next u ∧
    step u = .next { s with
      cmdIn := rest
      trace := s.trace ++ [.reserved r.op, .rsp (Response.failure .illegalCommand 0)] }

/-- 30 R90, 42 R181: in a rest state a step takes the presented record and runs the command it decodes to; with
none presented the engine stays as it is (60 R286). -/
def Obligations.StepRunsTheDecodedCommand : Prop :=
  ∀ s : State, s.cmdReady = true →
    (s.cmdIn = [] → step s = .next s) ∧
    ∀ (r : CmdRecord) (rest : List CmdRecord) (i : Instr), s.cmdIn = r :: rest → decodeRecord r = .ok i →
      step s = exec i { s with cmdIn := rest }

/-- A table word presented to the engine is the command the next step runs (notes/assumptions/3.md, 20.md: the
packing, and presenting a command, are the model's). -/
def Obligations.TableWordRunsAsNextCommand : Prop :=
  ∀ (s : State) (nbits w : Nat) (i : Instr), decodeTableWord nbits w = some i →
    step (s.withFetchWord nbits w) = exec i { s with
      cmd := none, plWait := false, plTaken := 0, plGood := true, rspOut := none, rvOut := [],
      rst := false, callWait := false,
      st := if s.connOpen then .sIdle else .sDisc }

/-- 42 R181, 70 R305: while a command is in execution none is accepted: a command presented waits, and a step
takes no record and logs no acceptance. -/
def Obligations.CommandWaitsWhileEngineIsBusy : Prop :=
  ∀ s : State, s.cmdReady = false →
    (∀ i : Instr, exec i s = .next s) ∧
    ∀ t : State, s.rst = false → step s = .next t →
      t.cmdIn = s.cmdIn ∧
      ∃ new, t.trace = s.trace ++ new ∧
        ∀ e ∈ new, (∀ i, e ≠ .cmd i) ∧ ∀ op, e ≠ .reserved op

/-! ## The CRC -/

/-- 40 R130, R131: the worked examples. -/
def Obligations.CrcOfKnownSequences : Prop :=
  crcUpdate 0xFFFF#16 0x01#8 = 0x807E#16 ∧
  crc16 [] = 0xFFFF#16 ∧
  crc16 [0xFF#8, 0xFF#8] = 0x0000#16 ∧
  crc16 [0x31#8, 0x32#8, 0x33#8, 0x34#8, 0x35#8, 0x36#8, 0x37#8, 0x38#8, 0x39#8] = 0x4B37#16

/-- 40 R138. -/
def Obligations.CrcContinuesOverConcatenation : Prop :=
  ∀ a b : List Byte, crc16 (a ++ b) = crcFold (crc16 a) b

/-- 40 R130, R136: the byte step is made of exclusive-or and shifts: it is linear, and no two accumulators
meet. -/
def Obligations.CrcStepIsLinearAndInjective : Prop :=
  (∀ (a b : Half) (x y : Byte), crcUpdate (a ^^^ b) (x ^^^ y) = crcUpdate a x ^^^ crcUpdate b y) ∧
  ∀ (a b : Half) (x : Byte), crcUpdate a x = crcUpdate b x → a = b

/-- 40 R137: every single-bit error is detected, and the CRC of a frame with its CRC is 0. -/
def Obligations.EverySingleBitErrorIsDetected : Prop :=
  (∀ (b : List Byte) (i j : Nat), 2 ≤ b.length → crcCheck b = some true → i < b.length → j < 8 →
    crcCheck (flipBit b i j) = some false) ∧
  ∀ b : List Byte, crc16 (crcAppend b) = 0

/-- 40 R134: `CRC16` answers the CRC of its bytes and writes `CRC` only; and so does a `CRC16` that waited for the
rest of its bytes. That `OP` is written is the model's (notes/assumptions/30.md). -/
def Obligations.Crc16CommandAnswersTheCrc : Prop :=
  (∀ (s : State) (n : Nat), s.accepts → n ≤ s.payload.length →
    Completes (.crc16 n) s { s with
      op := 0x90#8
      crc := crc16 ((s.payload.take n).map beatByte)
      payload := s.payload.drop n
      trace := s.trace ++ [.cmd (.crc16 n)] ++ (s.payload.take n).map .payload ++
        [.rsp (Response.success (crc16 ((s.payload.take n).map beatByte)))] }) ∧
  ∀ (s : State) (n : Nat), Inv s → s.rst = false → s.rspReady = true → s.plWait = true →
    s.cmd = some (.crc16 n) → n - s.plTaken ≤ s.payload.length →
    let more := s.payload.take (n - s.plTaken)
    StepsTo s { s with
      cmd := none, plWait := false, plTaken := 0, plGood := true
      crc := crc16 ((beatsOf s.trace ++ more).map beatByte)
      payload := s.payload.drop (n - s.plTaken)
      trace := s.trace ++ more.map .payload ++
        [.rsp (Response.success (crc16 ((beatsOf s.trace ++ more).map beatByte)))] }

/-- 40 R135: `CRC_CHECK` answers by the trailer of its bytes, calls nothing and writes `CRC` only. That `OP` is
written, and that `CRC` keeps its value below two bytes, is the model's (notes/assumptions/30.md, 12.md). -/
def Obligations.CrcCheckCommandTestsTheTrailer : Prop :=
  ∀ (s : State) (n : Nat), s.accepts → n ≤ s.payload.length →
    let b := (s.payload.take n).map beatByte
    Completes (.crcCheck n) s { s with
      op := 0x91#8
      crc := if n < 2 then s.crc else crc16 (b.take (n - 2))
      payload := s.payload.drop n
      trace := s.trace ++ [.cmd (.crcCheck n)] ++ (s.payload.take n).map .payload ++
        [.rsp (if n < 2 then Response.failure .malformedFrame 0
          else if b.drop (n - 2) = [lo8 (crc16 (b.take (n - 2))), hi8 (crc16 (b.take (n - 2)))]
            then Response.success 1
          else Response.failure .checksumError 0)] }

/-! ## The frame codec -/

/-- 41 R150, 30 R101: the eight bytes of a read request. -/
def Obligations.ReadRequestLayout : Prop :=
  ∀ (slave : Byte) (k : ReadKind) (start qty : Half),
    let body := [slave, k.fc, hi8 start, lo8 start, hi8 qty, lo8 qty]
    encodeRead slave k start qty = body ++ [lo8 (crc16 body), hi8 (crc16 body)] ∧
    (encodeRead slave k start qty).length = 8

/-- 41 R151, 30 R103: the layout of a write request of at most 123 values. -/
def Obligations.WriteRequestLayout : Prop :=
  ∀ (slave : Byte) (start : Half) (vals : List Half), vals.length ≤ 123 →
    let f := encodeWrite slave start vals
    f.length = 9 + 2 * vals.length ∧ f.length ≤ 255 ∧
    byteAt f 0 = slave ∧ byteAt f 1 = 0x10#8 ∧
    be16 (byteAt f 2) (byteAt f 3) = start ∧
    (be16 (byteAt f 4) (byteAt f 5)).toNat = vals.length ∧
    (byteAt f 6).toNat = 2 * vals.length ∧
    (∀ (i : Nat) (v : Half), vals[i]? = some v →
      byteAt f (7 + 2 * i) = hi8 v ∧ byteAt f (8 + 2 * i) = lo8 v) ∧
    byteAt f (7 + 2 * vals.length) = lo8 (crc16 (f.take (7 + 2 * vals.length))) ∧
    byteAt f (8 + 2 * vals.length) = hi8 (crc16 (f.take (7 + 2 * vals.length)))

/-- 41 R153 to R160: the tests in their order; the first that fails decides. -/
def Obligations.DecodeTestsFrameInOrder : Prop :=
  ∀ (b : List Byte) (slave fc : Byte),
    (b.length < 5 → decodeFrame b slave fc = .err .malformedFrame) ∧
    (5 ≤ b.length →
      (crcCheck b = some false → decodeFrame b slave fc = .err .checksumError) ∧
      (crcCheck b = some true →
        (byteAt b 0 ≠ slave → decodeFrame b slave fc = .err .unexpectedResponse) ∧
        (byteAt b 0 = slave →
          (byteAt b 1 &&& 0x7F#8 ≠ fc → decodeFrame b slave fc = .err .unexpectedResponse) ∧
          (byteAt b 1 &&& 0x7F#8 = fc →
            (byteAt b 1 &&& 0x80#8 ≠ 0 →
              decodeFrame b slave fc = .err (.slaveException (byteAt b 2))) ∧
            (byteAt b 1 &&& 0x80#8 = 0 →
              ((fc = 0x03#8 ∨ fc = 0x04#8) →
                ((byteAt b 2).toNat ≠ b.length - 5 ∨ (byteAt b 2).toNat % 2 = 1 →
                  decodeFrame b slave fc = .err .malformedFrame) ∧
                ((byteAt b 2).toNat = b.length - 5 → (byteAt b 2).toNat % 2 = 0 →
                  decodeFrame b slave fc = .values ((List.range ((byteAt b 2).toNat / 2)).map
                    fun i => be16 (byteAt b (3 + 2 * i)) (byteAt b (4 + 2 * i))))) ∧
              (fc = 0x10#8 →
                (b.length ≠ 8 → decodeFrame b slave fc = .err .malformedFrame) ∧
                (b.length = 8 → decodeFrame b slave fc =
                  .echo (be16 (byteAt b 2) (byteAt b 3)) (be16 (byteAt b 4) (byteAt b 5)))))))))

/-- 41 R159: the values of an accepted read response, in order, and no more than the value buffer holds. -/
def Obligations.DecodedValuesAreTheFrameFields : Prop :=
  ∀ (b : List Byte) (slave fc : Byte) (vs : List Half), b.length ≤ 256 →
    decodeFrame b slave fc = .values vs →
    2 * vs.length + 5 = b.length ∧ vs.length ≤ 125 ∧
    ∀ i : Nat, i < vs.length →
      vs[i]? = some (be16 (byteAt b (3 + 2 * i)) (byteAt b (4 + 2 * i)))

/-- 41 R154 to R160 read backwards: a frame that is accepted is, byte for byte, the response of 30 R102, R104
or R105 that carries what it decoded to. -/
def Obligations.AcceptedFrameIsTheResponseItMeans : Prop :=
  ∀ (b : List Byte) (slave : Byte),
    (∀ (k : ReadKind) (vs : List Half), decodeFrame b slave k.fc = .values vs →
      b = readResponse slave k vs) ∧
    (∀ start count : Half, decodeFrame b slave 0x10#8 = .echo start count →
      b = writeResponse slave start count) ∧
    (∀ fc code : Byte, b.length = 5 → decodeFrame b slave fc = .err (.slaveException code) →
      b = crcAppend [slave, fc ||| 0x80#8, code])

/-- 41 R162 (a) to (e). -/
def Obligations.FramesRoundTripAndCorruptionIsSeen : Prop :=
  (∀ x : List Byte, crcCheck (crcAppend x) = some true) ∧
  (∀ (slave : Byte) (k : ReadKind) (vs : List Half), vs.length ≤ 125 →
    decodeFrame (readResponse slave k vs) slave k.fc = .values vs) ∧
  (∀ (slave : Byte) (start k : Half), decodeFrame (writeResponse slave start k) slave 0x10#8 = .echo start k) ∧
  (∀ (b : List Byte) (i j : Nat), 5 ≤ b.length → crcCheck b = some true → i < b.length → j < 8 →
    ∀ s f : Byte, decodeFrame (flipBit b i j) s f = .err .checksumError) ∧
  ∀ (s : Byte) (a : Half) (vs : List Half), vs.length ≤ 123 →
    (encodeWrite s a vs).take 6 = [s, 0x10#8, hi8 a, lo8 a, hi8 (BitVec.ofNat 16 vs.length),
      lo8 (BitVec.ofNat 16 vs.length)] ∧
    decodeFrame (crcAppend ((encodeWrite s a vs).take 6)) s 0x10#8 = .echo a (BitVec.ofNat 16 vs.length)

/-- 30 R105, 41 R158: an exception response of the function asked for decodes to its code, whatever it is; of
another function it is `UnexpectedResponse` (41 R157). -/
def Obligations.ExceptionResponseDecodesToItsCode : Prop :=
  ∀ slave fc code : Byte, fc ∈ [0x03#8, 0x04#8, 0x10#8] →
    decodeFrame (crcAppend [slave, fc ||| 0x80#8, code]) slave fc = .err (.slaveException code) ∧
    ∀ other : Byte, other ∈ [0x03#8, 0x04#8, 0x10#8] → other ≠ fc →
      decodeFrame (crcAppend [slave, fc ||| 0x80#8, code]) slave other = .err .unexpectedResponse

/-- 30 R107: the length a response announces, its range, and that more bytes never change it. -/
def Obligations.AnnouncedLengthIsBoundedAndStable : Prop :=
  ∀ rx : List Byte,
    (rx.length < 2 → flen rx = none) ∧
    (2 ≤ rx.length →
      (byteAt rx 1 &&& 0x80#8 ≠ 0 → flen rx = some 5) ∧
      (byteAt rx 1 = 0x03#8 ∨ byteAt rx 1 = 0x04#8 →
        flen rx = if rx.length < 3 then none else some (5 + (byteAt rx 2).toNat)) ∧
      (byteAt rx 1 = 0x10#8 → flen rx = some 8) ∧
      (byteAt rx 1 ∉ [0x03#8, 0x04#8, 0x10#8] → flen rx = some 5)) ∧
    (flen rx = none → target rx = 5) ∧
    ∀ n : Nat, flen rx = some n →
      target rx = n ∧ 5 ≤ n ∧ n ≤ 260 ∧ ∀ more : List Byte, flen (rx ++ more) = some n

/-! ## CONNECT, DISCONNECT, SET_TIMING -/

/-- 42 R191. That `OP` is written is the model's (notes/assumptions/30.md). -/
def Obligations.SetTimingWritesTheTimers : Prop :=
  ∀ (s : State) (settle resp drain : Word), s.accepts →
    Completes (.setTiming settle resp drain) s { s with
      op := 0x82#8, tSettle := settle, tResp := resp, tDrain := drain
      trace := s.trace ++ [.cmd (.setTiming settle resp drain), .rsp (Response.success 0)] }

/-- 42 R190: one close when a Connection exists, no call otherwise; `OK` 1 either way. -/
def Obligations.DisconnectClosesOnceOrNothing : Prop :=
  ∀ s : State, s.accepts →
    (s.connOpen = false →
      Completes .disconnect s { s with
        op := 0x81#8
        trace := s.trace ++ [.cmd .disconnect, .rsp (Response.success 1)] }) ∧
    (∀ (a : Answer) (rest : List Answer), s.connOpen = true → s.tReady = true →
      s.answers = a :: rest →
      Completes .disconnect s { s with
        op := 0x81#8, st := .sDisc, connOpen := false, answers := rest
        trace := s.trace ++ [.cmd .disconnect, .call (.close s.handle), .reply .closed,
          .rsp (Response.success 1)] })

/-- 42 R182 to R189: `CONNECT` closes the old Connection if there is one, opens with its operands unchanged, the
name forwarded byte by byte once `T.open` is issued, latches them, drains until a read is empty, waits `T_SETTLE`
ticks, flushes once and answers `OK` 1. The supply of ticks in State is the model's (notes/assumptions/8.md); that the
answer of `T.open` is taken after the last byte of the name is DEDUCED (notes/assumptions/6.md). -/
def Obligations.ConnectResynchronisesAndConnects : Prop :=
  ∀ (s : State) (n : Nat) (baud : Word) (databits parity stopbits : Byte)
    (pre ds rest : List Answer) (o e f : Answer),
    s.accepts → s.tReady = true → s.twReady = true → n ≤ s.payload.length →
    s.answers = pre ++ o :: ds ++ e :: f :: rest →
    pre.length = (if s.connOpen then 1 else 0) → o.ok = true → Drained ds →
    e.bytes = [] → e.n = 0 → s.tSettle.toNat ≤ s.ticks →
    Completes (.connect n baud databits parity stopbits) s { s with
      op := 0x80#8, st := .sIdle, connOpen := true, handle := o.handle
      baud := baud, databits := databits, parity := parity, stopbits := stopbits, slave := 0
      rem := 0, ticks := s.ticks - s.tSettle.toNat, payload := s.payload.drop n, answers := rest
      trace := s.trace ++ [.cmd (.connect n baud databits parity stopbits)] ++ s.closeEvents ++
        [.call (.openPort n baud databits parity stopbits)] ++ nameEvents (s.payload.take n) ++
        [.reply (.opened o.handle), .call (.read o.handle 256 s.tDrain)] ++
        drainEvents o.handle s.tDrain ds ++
        [.reply (.drained []), .wait s.tSettle, .call (.flush o.handle), .reply .flushed,
          .rsp (Response.success 1)] }

/-- 60 R261, 42 R184: an open that fails ends the command with `ConnectionError`, Disconnected, with no close
and no flush but the close of the old Connection; the whole name is taken all the same (30 R92). That the answer of
`T.open` is taken after the last byte of the name is DEDUCED (notes/assumptions/6.md). -/
def Obligations.ConnectOpenFailureEndsDisconnected : Prop :=
  ∀ (s : State) (n : Nat) (baud : Word) (databits parity stopbits : Byte)
    (pre rest : List Answer) (o : Answer),
    s.accepts → s.tReady = true → s.twReady = true → n ≤ s.payload.length → s.answers = pre ++ o :: rest →
    pre.length = (if s.connOpen then 1 else 0) → o.ok = false →
    Completes (.connect n baud databits parity stopbits) s { s with
      op := 0x80#8, st := .sDisc, connOpen := false, payload := s.payload.drop n, answers := rest
      trace := s.trace ++ [.cmd (.connect n baud databits parity stopbits)] ++ s.closeEvents ++
        [.call (.openPort n baud databits parity stopbits)] ++ nameEvents (s.payload.take n) ++
        [.reply .transportError, .rsp (Response.failure .connectionError 0)] }

/-- 42 R187, 20 R81 d: while no drain read answers empty, `CONNECT` stays in `S_DRAIN` with its next read
outstanding, and no response is given. That the answer of `T.open` is taken after the last byte of the name is
DEDUCED (notes/assumptions/6.md). -/
def Obligations.ConnectDrainsWhileBusIsNotSilent : Prop :=
  ∀ (s : State) (n : Nat) (baud : Word) (databits parity stopbits : Byte)
    (pre ds : List Answer) (o : Answer),
    s.accepts → s.tReady = true → s.twReady = true → n ≤ s.payload.length → s.answers = pre ++ o :: ds →
    pre.length = (if s.connOpen then 1 else 0) → o.ok = true → Drained ds →
    WaitsAt (.connect n baud databits parity stopbits) s { s with
      op := 0x80#8, st := .sDrain, connOpen := true, handle := o.handle
      cmd := some (.connect n baud databits parity stopbits)
      baud := baud, databits := databits, parity := parity, stopbits := stopbits, slave := 0
      payload := s.payload.drop n, answers := []
      trace := s.trace ++ [.cmd (.connect n baud databits parity stopbits)] ++ s.closeEvents ++
        [.call (.openPort n baud databits parity stopbits)] ++ nameEvents (s.payload.take n) ++
        [.reply (.opened o.handle), .call (.read o.handle 256 s.tDrain)] ++
        drainEvents o.handle s.tDrain ds }

/-- 42 R188, 10 R37: one off `REM` per tick; at 0 the settle wait is over and the flush is due; with no tick the
engine stays where it is. The supply of ticks is the model's (notes/assumptions/8.md). -/
def Obligations.SettleWaitCountsTicksDown : Prop :=
  ∀ s : State, s.inState .sSettle →
    (∀ k : Nat, k ≤ s.ticks → k ≤ s.rem.toNat →
      Host.Core.run Sys2Proof.core k s = .next { s with
        rem := BitVec.ofNat 32 (s.rem.toNat - k), ticks := s.ticks - k }) ∧
    (s.rem = 0 → step s = .next { s with
      st := .sSyncFlush, callWait := true, trace := s.trace ++ [.wait s.tSettle] }) ∧
    (s.rem ≠ 0 → s.ticks = 0 → step s = .next s)

/-! ## The register commands -/

/-- 60 R268, 43 R234: a read of more than 125 registers touches nothing, in either rest state. -/
def Obligations.TooManyRegistersTouchesNothing : Prop :=
  ∀ (s : State) (k : ReadKind) (slave : Byte) (start : Half) (n : Nat), s.accepts → 125 < n →
    Completes (k.command slave start n) s { s with
      op := k.fc
      trace := s.trace ++ [.cmd (k.command slave start n),
        .rsp (Response.failure .tooManyRegisters 0)] }

/-- 60 R269, 43 R233: a write of more than 123 values takes its payload and does nothing else, whatever the
values. -/
def Obligations.TooManyValuesTouchesNothing : Prop :=
  ∀ (s : State) (slave : Byte) (start : Half) (n : Nat), s.accepts → n ≤ s.payload.length → 123 < n →
    Completes (.writeHolding slave start n) s { s with
      op := 0x10#8, payload := s.payload.drop n
      trace := s.trace ++ [.cmd (.writeHolding slave start n)] ++ (s.payload.take n).map .payload ++
        [.rsp (Response.failure .tooManyValues 0)] }

/-- 60 R270: a value below 0 or above 65535, as a signed 32-bit integer: the payload is taken and nothing changes,
but that `VBUF` may have been written partly, with the first values, from index 0 on (how many the model writes is
left open here: notes/assumptions/14.md). -/
def Obligations.InvalidRegisterValueTouchesNothing : Prop :=
  ∀ (s : State) (slave : Byte) (start : Half) (n : Nat), s.accepts → n ≤ s.payload.length → n ≤ 123 →
    (∃ v ∈ s.payload.take n, v.toInt < 0 ∨ 65535 < v.toInt) →
    ∃ j, j ≤ n ∧ Completes (.writeHolding slave start n) s { s with
      op := 0x10#8, payload := s.payload.drop n
      vbuf := s.vbuf.writeFrom 0 (((s.payload.take n).map beatValue).take j)
      trace := s.trace ++ [.cmd (.writeHolding slave start n)] ++ (s.payload.take n).map .payload ++
        [.rsp (Response.failure .invalidRegisterValue 0)] }

/-- 42 R193, 60 R262: a valid register command without a Connection is encoded and answered `NotConnected`: no
call, and no persistent register written. The scratch `CRC` is as notes/assumptions/12.md says. -/
def Obligations.NotConnectedMakesNoCall : Prop :=
  ∀ (s : State) (slave : Byte) (start : Half) (n : Nat), s.accepts → s.connOpen = false →
    (∀ k : ReadKind, n ≤ 125 →
      Completes (k.command slave start n) s { s.withRequest k.fc n
          (encodeRead slave k start (BitVec.ofNat 16 n)) with
        op := k.fc
        trace := s.trace ++ [.cmd (k.command slave start n), .rsp (Response.failure .notConnected 0)] }) ∧
    (n ≤ 123 → n ≤ s.payload.length → s.vbuf.wf →
      (∀ v ∈ s.payload.take n, 0 ≤ v.toInt ∧ v.toInt ≤ 65535) →
      Completes (.writeHolding slave start n) s { (s.withValues
          ((s.payload.take n).map beatValue)).withRequest 0x10#8 n
          (encodeWrite slave start ((s.payload.take n).map beatValue)) with
        op := 0x10#8, payload := s.payload.drop n
        trace := s.trace ++ [.cmd (.writeHolding slave start n)] ++ (s.payload.take n).map .payload ++
          [.rsp (Response.failure .notConnected 0)] })

/-- 43 R231, R232, R236, 42 R194 to R197, R200: a read of `n ≤ 125` registers, its request written whole and
the matching response received in any pieces, completes with the values: one write, the reads, no flush. Any
slave address, any start, and `n = 0` included (43 R237). What `CRC` holds and `V_LEN` becoming 0 after the
values are the model's (notes/assumptions/12.md, 11.md). -/
def Obligations.ReadsComplete : Prop :=
  ∀ (s : State) (k : ReadKind) (slave : Byte) (start : Half) (n : Nat) (vs : List Half)
    (w : Answer) (pieces rest : List Answer),
    s.accepts → s.tReady = true → s.rvReady = true → s.connOpen = true → s.txbuf.wf → s.rxbuf.wf → s.vbuf.wf →
    n ≤ 125 → vs.length = n → s.answers = w :: pieces ++ rest → w.ok = true → w.n = 8 →
    Pieces (readResponse slave k vs) [] s.tResp pieces →
    Completes (k.command slave start n) s { (((s.withRequest k.fc n
        (encodeRead slave k start (BitVec.ofNat 16 n))).withFrame
        (readResponse slave k vs) (piecesRem s.tResp pieces)).withValues vs) with
      op := k.fc, st := .sIdle, slave := slave, vLen := 0, answers := rest
      trace := s.trace ++ [.cmd (k.command slave start n),
          .call (.write s.handle (encodeRead slave k start (BitVec.ofNat 16 n))),
          .reply (.written 8)] ++
        piecesEvents s.handle [] s.tResp pieces ++
        [.rsp (Response.success (BitVec.ofNat 16 n))] ++ vs.map .value }

/-- 43 R233, R236, 42 R194 to R197, R200: a write of `n ≤ 123` values in range, its request written whole and
an echo of the count received in any pieces, completes with the count; the echoed address may be any. The
scratch `CRC` is as notes/assumptions/12.md says. -/
def Obligations.WriteHoldingCompletes : Prop :=
  ∀ (s : State) (slave : Byte) (start echoed : Half) (n : Nat) (w : Answer) (pieces rest : List Answer),
    s.accepts → s.tReady = true → s.connOpen = true → s.txbuf.wf → s.rxbuf.wf → s.vbuf.wf →
    n ≤ 123 → n ≤ s.payload.length →
    (∀ v ∈ s.payload.take n, 0 ≤ v.toInt ∧ v.toInt ≤ 65535) →
    s.answers = w :: pieces ++ rest → w.ok = true → w.n = BitVec.ofNat 9 (9 + 2 * n) →
    Pieces (writeResponse slave echoed (BitVec.ofNat 16 n)) [] s.tResp pieces →
    Completes (.writeHolding slave start n) s { (((s.withValues
        ((s.payload.take n).map beatValue)).withRequest 0x10#8 n
        (encodeWrite slave start ((s.payload.take n).map beatValue))).withFrame
        (writeResponse slave echoed (BitVec.ofNat 16 n)) (piecesRem s.tResp pieces)) with
      op := 0x10#8, st := .sIdle, slave := slave, payload := s.payload.drop n, answers := rest
      trace := s.trace ++ [.cmd (.writeHolding slave start n)] ++ (s.payload.take n).map .payload ++
          [.call (.write s.handle (encodeWrite slave start ((s.payload.take n).map beatValue))),
          .reply (.written w.n)] ++
        piecesEvents s.handle [] s.tResp pieces ++ [.rsp (Response.success (BitVec.ofNat 16 n))] }

/-- 43 R230, 42 R193, R194: a valid register command on a Connection is latched and encoded, `SLAVE` and `ST`
are written, and the one write goes out: from there on the command is its exchange. A read is there, the write
still to be issued, in the step that accepts it. The scratch `CRC` is as notes/assumptions/12.md says. -/
def Obligations.RegisterCommandBecomesItsExchange : Prop :=
  ∀ (s : State) (slave : Byte) (start : Half) (n : Nat), s.accepts → s.connOpen = true →
    s.txbuf.wf →
    (∀ k : ReadKind, n ≤ 125 →
      let u := { s.withRequest k.fc n (encodeRead slave k start (BitVec.ofNat 16 n)) with
        op := k.fc, st := .sTx, slave := slave, cmd := some (k.command slave start n), callWait := true
        trace := s.trace ++ [.cmd (k.command slave start n)] }
      exec (k.command slave start n) s = .next u ∧
      (s.tReady = true → step u = .next { u with
        callWait := false
        trace := s.trace ++ [.cmd (k.command slave start n),
          .call (.write s.handle (encodeRead slave k start (BitVec.ofNat 16 n)))] })) ∧
    (n ≤ 123 → n ≤ s.payload.length → s.vbuf.wf → s.tReady = true →
      (∀ v ∈ s.payload.take n, 0 ≤ v.toInt ∧ v.toInt ≤ 65535) →
      Completes (.writeHolding slave start n) s { (s.withValues
          ((s.payload.take n).map beatValue)).withRequest 0x10#8 n
          (encodeWrite slave start ((s.payload.take n).map beatValue)) with
        op := 0x10#8, st := .sTx, slave := slave, cmd := some (.writeHolding slave start n)
        payload := s.payload.drop n
        trace := s.trace ++ [.cmd (.writeHolding slave start n)] ++ (s.payload.take n).map .payload ++
          [.call (.write s.handle (encodeWrite slave start ((s.payload.take n).map beatValue)))] })

/-- 60 R273, 42 R194, R202: a write answered with anything but the whole length fails with
`TransportWriteError` after one flush; no read is attempted. -/
def Obligations.FailedWriteIsFlushed : Prop :=
  ∀ (s : State) (a f : Answer) (rest : List Answer), s.inState .sTx → s.rspReady = true → s.tReady = true →
    s.answers = a :: f :: rest → ¬ (a.ok = true ∧ a.n = s.txLen) →
    StepsTo s (State.flushedFailure
      { s with trace := s.trace ++ [.reply (if a.ok then .written a.n else .transportError)] }
      .transportWriteError 0 rest)

/-- 42 R199, 60 R263: an empty answer in the read phase ends the command with `TransportTimeout` after one
flush; `REM` and the bytes received stay as they were. -/
def Obligations.EmptyReadTimesOut : Prop :=
  ∀ (s : State) (a f : Answer) (rest : List Answer), s.inState .sRx → s.rspReady = true → s.tReady = true →
    s.rxLen.toNat ≤ 256 → s.answers = a :: f :: rest → a.bytes = [] → a.n = 0 →
    StepsTo s (State.flushedFailure { s with trace := s.trace ++ [.reply (.data [] a.dt)] }
      .transportTimeout 0 rest)

/-- 42 R196, R198, R199: a non-empty answer that announces more than 256 bytes is `MalformedFrame`; one that
leaves the response incomplete with no time left is `TransportTimeout`; each after one flush, the bytes and the
time counted first. -/
def Obligations.ReadPhaseFailsAfterCounting : Prop :=
  ∀ (s : State) (a f : Answer) (rest : List Answer),
    s.inState .sRx → s.rspReady = true → s.tReady = true → s.rxbuf.wf →
    s.answers = a :: f :: rest → a.bytes ≠ [] → a.bytes.length = a.n.toNat →
    a.bytes.length ≤ target s.rx - s.rxLen.toNat → s.rxLen.toNat + a.bytes.length ≤ 256 →
    let t := { s with
      rxbuf := s.rxbuf.writeFrom s.rxLen.toNat a.bytes
      rxLen := BitVec.ofNat 9 (s.rxLen.toNat + a.bytes.length)
      rem := BitVec.ofNat 32 (s.rem.toNat - a.dt)
      trace := s.trace ++ [.reply (.data a.bytes a.dt)] }
    (∀ m : Nat, flen (s.rx ++ a.bytes) = some m → 256 < m →
      StepsTo s (State.flushedFailure t .malformedFrame 0 rest)) ∧
    ((∀ m : Nat, flen (s.rx ++ a.bytes) = some m → m ≤ 256 ∧ m ≠ (s.rx ++ a.bytes).length) →
      s.rem.toNat ≤ a.dt →
      StepsTo s (State.flushedFailure t .transportTimeout 0 rest))

/-- 42 R202, 43 R230, 41 R153: an exchange whose response comes whole, in any pieces, and is refused by
`decode` ends with that error after one flush, the slave's exception code unchanged (60 R267). The scratch `CRC`
is as notes/assumptions/12.md says. -/
def Obligations.RefusedFrameIsFlushedAndReported : Prop :=
  ∀ (s : State) (frame : List Byte) (e : FrameError) (w f : Answer) (pieces rest : List Answer),
    s.inState .sTx → s.rspReady = true → s.tReady = true → s.rxbuf.wf →
    s.answers = w :: pieces ++ f :: rest → w.ok = true → w.n = s.txLen →
    Pieces frame [] s.tResp pieces → flen frame = some frame.length → frame.length ≤ 256 →
    decodeFrame frame s.slave s.expFc = .err e →
    StepsTo s (State.flushedFailure { s.withFrame frame (piecesRem s.tResp pieces) with
      trace := s.trace ++ [.reply (.written w.n)] ++ piecesEvents s.handle [] s.tResp pieces }
      e.status e.code rest)

/-- 60 R271, R272, 43 R231, R233: a well-formed response whose count is not the one asked for is a count
mismatch, after one flush, and delivers no value. The scratch `CRC` is as notes/assumptions/12.md says. -/
def Obligations.CountMismatchIsFlushedAndReported : Prop :=
  ∀ (s : State) (frame : List Byte) (w f : Answer) (pieces rest : List Answer),
    s.inState .sTx → s.rspReady = true → s.tReady = true → s.rxbuf.wf →
    s.answers = w :: pieces ++ f :: rest → w.ok = true → w.n = s.txLen →
    Pieces frame [] s.tResp pieces → flen frame = some frame.length → frame.length ≤ 256 →
    let t := { s.withFrame frame (piecesRem s.tResp pieces) with
      trace := s.trace ++ [.reply (.written w.n)] ++ piecesEvents s.handle [] s.tResp pieces }
    (∀ vs : List Half, decodeFrame frame s.slave s.expFc = .values vs → vs.length ≠ s.reqCount.toNat →
      StepsTo s (State.flushedFailure (t.withValues vs) .registerCountMismatch 0 rest)) ∧
    (∀ start count : Half, decodeFrame frame s.slave s.expFc = .echo start count → count ≠ s.reqCount →
      StepsTo s (State.flushedFailure t .writeCountMismatch 0 rest))

/-! ## Waiting -/

/-- 30 R92, 20 R63: payload beats are taken one at a time; a command whose payload has not all been offered has
been accepted, has taken the beats there are, and waits for the rest. That `OP` is written by the CRC commands,
that `CRC` is written beat by beat and a `CRC_CHECK` of one byte leaves it, and where `VBUF` stops being filled when a
value is out of range, are the model's (notes/assumptions/30.md, 12.md, 14.md). That a beat of a name and its byte on
the stream of `T.open` pass in one transfer, and that neither does while `tw_ready` is low, is the model's, DEDUCED
(notes/assumptions/6.md, 7.md): 42 R182 says that the bytes are forwarded and not stored. -/
def Obligations.PayloadShortageWaits : Prop :=
  (∀ (s : State) (i : Instr) (n : Nat) (beat : Word) (rest : List Word),
    s.rst = false → s.quiet = true → s.plWait = true → s.cmd = some i → i.count? = some n →
    s.plTaken < n → s.payload = beat :: rest →
    (Instr.payloadAtRest i = true →
      step s = .next { s with
        payload := rest, plTaken := s.plTaken + 1, crc := beatCrc i s.plTaken beat s.crc
        plGood := beatGood i s.plTaken beat s.crc s.plGood
        vbuf := beatStore i s.plTaken beat s.plGood s.vbuf
        trace := s.trace ++ [.payload beat] }) ∧
    (Instr.isConnect i = true → s.twReady = false → step s = .next s) ∧
    (Instr.isConnect i = true → s.twReady = true →
      step s = .next { s with
        payload := rest, plWait := decide (s.plTaken + 1 < n)
        plTaken := if s.plTaken + 1 < n then s.plTaken + 1 else 0
        trace := s.trace ++ [.forward beat (beatByte beat)] })) ∧
  ∀ (s : State) (slave : Byte) (start : Half) (n : Nat) (baud : Word) (databits parity stopbits : Byte),
    s.accepts → s.payload.length < n →
    let t (i : Instr) : State := { s with
      op := i.opcode, cmd := some i, plWait := true, plTaken := s.payload.length, payload := []
      trace := s.trace ++ [.cmd i] ++ s.payload.map .payload }
    WaitsAt (.writeHolding slave start n) s { t (.writeHolding slave start n) with
      plGood := decide (123 < n) || s.payload.all beatInRange
      vbuf := if 123 < n then s.vbuf
        else s.vbuf.writeFrom 0 ((s.payload.takeWhile beatInRange).map beatValue) } ∧
    WaitsAt (.crc16 n) s { t (.crc16 n) with crc := crc16 (s.payload.map beatByte) } ∧
    WaitsAt (.crcCheck n) s { t (.crcCheck n) with
      crc := if n < 2 then s.crc else crc16 ((s.payload.take (n - 2)).map beatByte)
      plGood := (s.payload.drop (n - 2)).all fun beat =>
        decide (beatByte beat = lo8 (crc16 ((s.payload.take (n - 2)).map beatByte))) } ∧
    ∀ pre rest : List Answer, s.tReady = true → s.twReady = true → s.answers = pre ++ rest →
      pre.length = (if s.connOpen then 1 else 0) →
      WaitsAt (.connect n baud databits parity stopbits) s
        { t (.connect n baud databits parity stopbits) with
          st := .sOpen, connOpen := false, answers := rest
          trace := s.trace ++ [.cmd (.connect n baud databits parity stopbits)] ++ s.closeEvents ++
            [.call (.openPort n baud databits parity stopbits)] ++ nameEvents s.payload }

/-- 30 R95, R96, 20 R63: a response record stays offered until the host takes it; then its value beats go one by
one, each when the host takes it; with the last the command is over. `V_LEN` becoming 0 then is the model's
(notes/assumptions/11.md). -/
def Obligations.ResponseWaitsForTheHost : Prop :=
  ∀ s : State, s.rst = false →
    (∀ r : Response, s.rspOut = some r →
      (s.rspReady = false → step s = .next s) ∧
      (s.rspReady = true → step s = .next { s with
        rspOut := none, cmd := if s.rvOut = [] then none else s.cmd, trace := s.trace ++ [.rsp r] })) ∧
    (∀ (v : Half) (rest : List Half), s.rspOut = none → s.rvOut = v :: rest →
      (s.rvReady = false → step s = .next s) ∧
      (s.rvReady = true → step s = .next { s with
        rvOut := rest
        cmd := if rest = [] then none else s.cmd
        vLen := if rest = [] then 0 else s.vLen
        trace := s.trace ++ [.value v] })) ∧
    (s.rspOut = none → s.rvOut ≠ [] → s.rvReady = true →
      StepsTo s { s with
        rvOut := [], cmd := none, vLen := 0, trace := s.trace ++ s.rvOut.map .value })

/-- 20 R74, R81 a, 30 R98: the engine waits as long as the transport does not take its call, and as long as it does
not answer it. -/
def Obligations.UnansweredCallWaits : Prop :=
  ∀ s : State, s.rst = false → s.quiet = true → s.st.awaitsAnswer = true → s.plWait = false →
    (s.callWait = true → s.tReady = false → step s = .next s) ∧
    (s.callWait = false → s.answers = [] → step s = .next s)

/-! ## Reset -/

/-- 70 R301, 10 R43: what reset leaves, where the spec gives a value. -/
def Obligations.ResetStateIsDisconnected : Prop :=
  State.reset.st = .sDisc ∧ State.reset.connOpen = false ∧ State.reset.tSettle = 100 ∧
  State.reset.tResp = 1000 ∧ State.reset.tDrain = 0 ∧ State.reset.connected = false ∧
  State.reset.busy = false ∧ State.reset.cmdReady = true

/-- 70 R300, R302: from any state the reset input leaves the reset state of 10 R43 with no call issued, the
Connection forgotten and a call outstanding abandoned: its answer never arrives (notes/assumptions/9.md for the
inputs). While `rst` is 1 no command is accepted and no transfer happens. -/
def Obligations.ResetInputForgetsAndCallsNothing : Prop :=
  ∀ s : State, s.rst = true → ∃ t : State, step s = .next t ∧
    t.st = .sDisc ∧ t.connOpen = false ∧ t.tSettle = 100 ∧ t.tResp = 1000 ∧ t.tDrain = 0 ∧
    t.busy = false ∧ t.cmdReady = true ∧ t.trace = s.trace ++ [.rst] ∧
    t.answers = (if s.callOutstanding then s.answers.drop 1 else s.answers) ∧
    s.cmdReady = false ∧ transition s = .blocked ∧ ∀ i : Instr, exec i s = .next s

/-! ## The whole machine -/

/-- The invariant holds after reset. -/
def Obligations.InvariantHoldsAtReset : Prop := Inv State.reset

/-- Every step keeps the invariant (10 R24, R35, R36, R38; 42 R180, R196). -/
def Obligations.StepKeepsTheInvariant : Prop :=
  ∀ s t : State, Inv s → step s = .next t → Inv t

/-- 20 R81, 30 R99: from a state that meets the invariant a step never faults, so no index past a buffer is formed
(10 R35, R36, R38), and it is refused only at the answer of its outstanding read: one whose stream has not `a_n`
beats, or that is longer than what that read asked for (notes/assumptions/15.md, 16.md). -/
def Obligations.StepStopsOnlyOnABrokenReadAnswer : Prop :=
  ∀ s : State, Inv s →
    (∃ t, step s = .next t) ∨
    ∃ (x : Refusal) (a : Answer) (rest : List Answer), step s = .refused x ∧
      (s.st = .sDrain ∨ s.st = .sRx) ∧ s.aReady = true ∧ s.answers = a :: rest ∧
      ((x = .answerStreamLength ∧ a.bytes.length ≠ a.n.toNat) ∨
        (x = .readAnswerTooLong ∧ a.bytes.length = a.n.toNat ∧ s.asked < a.bytes.length))

/-- The three disciplines of the history hold after reset. -/
def Obligations.DisciplinesHoldAtReset : Prop :=
  HandlesKept State.reset ∧ PortsOrdered State.reset ∧ FlushesKept State.reset

/-- 20 R80, 10 R24, R29: no step uses a handle that is not the open one, opens a second, or closes one twice. -/
def Obligations.StepKeepsTheHandleDiscipline : Prop :=
  ∀ s t : State, Inv s → HandlesKept s → step s = .next t → HandlesKept t

/-- 20 R74, 30 R90, R95: no step overlaps two commands or two calls, leaves a call unanswered, or answers a command
twice; the bytes of a name follow their `T.open` (42 R182). That each passes in the transfer that takes its payload
beat, and that the answer of `T.open` is taken only after the last of them, is the model's, DEDUCED from 30 R98 and
R99 (notes/assumptions/6.md). -/
def Obligations.StepKeepsThePortOrder : Prop :=
  ∀ s t : State, Inv s → PortsOrdered s → step s = .next t → PortsOrdered t

/-- 42 R202, R203, 60 R275: no step writes twice in one command, and a failure after the write is flushed exactly
once, before its response; a success is not. -/
def Obligations.StepKeepsTheFlushDiscipline : Prop :=
  ∀ s t : State, Inv s → FlushesKept s → step s = .next t → FlushesKept t

/-- 00 R13: a step is one transfer at most. 42 R196, 20 R67, R68, 41 R152, 60 R260: every read a step issues asks
for 1 to 256 bytes, every write has the length of a request, and every response is one of the table, whose code
numbers are these. -/
def Obligations.PortCallsKeepTheirBounds : Prop :=
  (∀ s t : State, step s = .next t → t.trace = s.trace ∨ ∃ e, t.trace = s.trace ++ [e]) ∧
  (∀ s t : State, Inv s → step s = .next t →
    ∃ new, t.trace = s.trace ++ new ∧ ∀ e ∈ new,
      (∀ h m limit, e = .call (.read h m limit) → 1 ≤ m.toNat ∧ m.toNat ≤ 256) ∧
      (∀ h b, e = .call (.write h b) → b.length = 8 ∨ ∃ k, k ≤ 123 ∧ b.length = 9 + 2 * k) ∧
      (∀ r, e = .rsp r → r.legal = true)) ∧
  [Status.ok, .connectionError, .notConnected, .transportTimeout, .malformedFrame, .checksumError,
    .unexpectedResponse, .slaveExceptionError, .tooManyRegisters, .tooManyValues, .invalidRegisterValue,
    .registerCountMismatch, .writeCountMismatch, .transportWriteError, .illegalCommand].map Status.code =
    [0, 1, 2, 3, 4, 5, 6, 7, 8, 9, 10, 11, 12, 13, 14]

/-- 60 R260, R276: each command answers only with the statuses of its own row, in the step that accepts it and in
every later step that carries it on. -/
def Obligations.CommandsAnswerOnlyTheirStatuses : Prop :=
  (∀ (i : Instr) (s t : State), s.cmdReady = true → exec i s = .next t → AnswersOnly i s t) ∧
  ∀ (i : Instr) (s t : State), Inv s → s.cmd = some i → step s = .next t → AnswersOnly i s t

/-- 10 R25 to R33: which command writes which persistent register, in the step that accepts it and in every later
step that carries it on: `CONN_OPEN` only `CONNECT` and `DISCONNECT`, `HANDLE` and the attributes only `CONNECT`, the
timers only `SET_TIMING`, `SLAVE` only `CONNECT` and the register commands, `ST` not `SET_TIMING`, `CRC16`,
`CRC_CHECK`. -/
def Obligations.CommandsWriteOnlyTheirRegisters : Prop :=
  (∀ (i : Instr) (s t : State), exec i s = .next t → WritesOnly i s t) ∧
  ∀ (i : Instr) (s t : State), Inv s → s.rst = false → s.cmd = some i → step s = .next t → WritesOnly i s t

/-- 20 R60, 10 R35, R36, R38: the bytes and values a command stores are those of its request, of the response
received and of the values, in the step that accepts it and in every later step that carries it on; every other
cell of the buffers reads as before. -/
def Obligations.StoresStayInsideTheFrames : Prop :=
  (∀ (i : Instr) (s t : State), s.txbuf.wf → s.rxbuf.wf → s.vbuf.wf → exec i s = .next t →
    StoresOnly i s t) ∧
  ∀ (i : Instr) (s t : State), Inv s → s.rst = false → s.cmd = some i → step s = .next t → StoresOnly i s t

/-- 10 R20, R40: scratch state carries nothing between commands: two engines at rest that differ in scratch state
only do the same for ever, in persistent state, in what they consume and in every event. -/
def Obligations.ScratchCarriesNothingBetweenCommands : Prop :=
  ∀ (s s' : State) (n : Nat), s.atRest → s'.atRest → s.withoutScratch = s'.withoutScratch →
    s.txbuf.wf → s.rxbuf.wf → s.vbuf.wf → s'.txbuf.wf → s'.rxbuf.wf → s'.vbuf.wf →
    (∀ t, Host.Core.run Sys2Proof.core n s = .next t →
      ∃ t', Host.Core.run Sys2Proof.core n s' = .next t' ∧
        State.withoutScratch t' = State.withoutScratch t) ∧
    (∀ x, Host.Core.run Sys2Proof.core n s = .fault x → Host.Core.run Sys2Proof.core n s' = .fault x) ∧
    (∀ x, Host.Core.run Sys2Proof.core n s = .refused x → Host.Core.run Sys2Proof.core n s' = .refused x)

/-- 60 R278, R279, 42 R203: nothing but a missing input stops the engine: a step leaves the state as it is exactly
when the engine waits for a command, for the host to take a record or a value, for a payload beat, for the transport
to take its call or a byte of a name or to answer it, or for a tick of the settle wait. That a step of a waiting engine
answers the same state is the model's (notes/assumptions/18.md). -/
def Obligations.EngineStopsOnlyForAnInput : Prop :=
  ∀ s : State, Inv s → s.rst = false → (step s = .next s ↔ s.Waits)

/-- 20 R74, R75, 30 R90, R92, 42 R188: inputs that arrive later change nothing the engine does before it waits for
them: a step that moves makes the same move with more inputs behind those there; and where the engine stopped for an
input after `n` steps, inputs that then arrive carry it on exactly as if they had been there from the start. That
inputs stand in lists is the model's (notes/assumptions/2.md). -/
def Obligations.LaterInputsContinueTheCommand : Prop :=
  (∀ (s t : State) (records : List CmdRecord) (beats : List Word) (answers : List Answer) (ticks : Nat),
    s.rst = false → step s = .next t → t ≠ s →
    step (s.withMore records beats answers ticks) = .next (t.withMore records beats answers ticks)) ∧
  ∀ (n m : Nat) (s u t : State) (records : List CmdRecord) (beats : List Word) (answers : List Answer)
    (ticks : Nat),
    s.rst = false → Host.Core.run Sys2Proof.core n s = .next u →
    (∀ k v, k < n → Host.Core.run Sys2Proof.core k s = .next v → step v ≠ .next v) →
    Host.Core.run Sys2Proof.core m (u.withMore records beats answers ticks) = .next t →
    Host.Core.run Sys2Proof.core (n + m) (s.withMore records beats answers ticks) = .next t
end

