-- ==== Sys2Proof/Laws/Codec.lean ====
section
/-! SUPPORT. Laws/Codec.lean: the small laws of bytes, halves and frames. -/

namespace Sys2Proof.Machine

/-- Splitting a half and assembling it again (30_encoding.md R106). -/
@[simp] theorem be16_hi8_lo8 (v : Half) : be16 (hi8 v) (lo8 v) = v := by
  apply BitVec.eq_of_getLsbD_eq
  intro i hi
  simp only [be16, hi8, lo8, BitVec.getLsbD_or, BitVec.getLsbD_shiftLeft, BitVec.getLsbD_setWidth,
    BitVec.getLsbD_ushiftRight]
  by_cases h : i < 8
  · simp [h, hi]
  · have h8 : 8 + (i - 8) = i := by omega
    simp [h, hi, h8, show i - 8 < 8 by omega, show i - 8 < 16 by omega]

@[simp] theorem lo8_be16 (h l : Byte) : lo8 (be16 h l) = l := by
  apply BitVec.eq_of_getLsbD_eq
  intro i hi
  simp [lo8, be16, hi]

@[simp] theorem hi8_be16 (h l : Byte) : hi8 (be16 h l) = h := by
  apply BitVec.eq_of_getLsbD_eq
  intro i hi
  simp [hi8, be16, hi, show 8 + i < 16 by omega, show i < 16 by omega]

/-- Two bytes a value (41_frame_codec.md R151). -/
@[simp] theorem valueBytes_length (vs : List Half) : (valueBytes vs).length = 2 * vs.length := by
  induction vs with
  | nil => rfl
  | cons v vs ih => simp [valueBytes, ih]; omega

@[simp] theorem valuesAt_length (b : List Byte) (off k : Nat) : (valuesAt b off k).length = k := by
  induction k generalizing off with
  | zero => rfl
  | succ k ih => simp [valuesAt, ih]

/-- The trailer is two bytes (40_crc16.md R132). -/
@[simp] theorem crcAppend_length (b : List Byte) : (crcAppend b).length = b.length + 2 := by
  simp [crcAppend]

/-- What the trailer covers is what it was appended to (40_crc16.md R132, R133). -/
@[simp] theorem crcBody_crcAppend (b : List Byte) : crcBody (crcAppend b) = b := by
  simp [crcBody, crcAppend]

/-- A byte of the front part of a sequence. -/
theorem byteAt_append_left {a b : List Byte} {i : Nat} (h : i < a.length) :
    byteAt (a ++ b) i = byteAt a i := by
  simp [byteAt, List.getElem?_append_left h]

/-- A byte of the back part of a sequence. -/
theorem byteAt_append_right {a b : List Byte} {i : Nat} (h : a.length ≤ i) :
    byteAt (a ++ b) i = byteAt b (i - a.length) := by
  simp [byteAt, List.getElem?_append_right h]

/-- A read request is 8 bytes (41_frame_codec.md R150, R152). -/
theorem encodeRead_length (slave : Byte) (k : ReadKind) (start qty : Half) :
    (encodeRead slave k start qty).length = 8 := rfl

/-- A write request is `9 + 2k` bytes (41_frame_codec.md R151, R152). -/
theorem encodeWrite_length (slave : Byte) (start : Half) (vals : List Half) :
    (encodeWrite slave start vals).length = 9 + 2 * vals.length := by
  simp [encodeWrite, writeBody]; omega

end Sys2Proof.Machine
end

