-- ==== Sys2Proof/Laws/Memory.lean ====
section
/-! SUPPORT. Laws/Memory.lean: the laws of the cell memories (20_memory.md R60): reading after writing, and
that every operation keeps the canonical form and the bound of the indices. -/

namespace Sys2Proof.Machine

variable {w : Nat}

@[simp] theorem Memory.read_nil (a : Nat) : Memory.read ([] : Memory w) a = Memory.unlisted w := rfl

theorem Memory.read_cons (k : Nat) (v : BitVec w) (m : Memory w) (a : Nat) :
    Memory.read ((k, v) :: m) a = if k = a then v else m.read a := rfl

/-- An index below every listed one is not listed. -/
theorem Memory.read_of_lt (m : Memory w) (a : Nat) (h : ∀ c ∈ m, a < c.1) :
    m.read a = Memory.unlisted w := by
  induction m with
  | nil => rfl
  | cons c m ih =>
    obtain ⟨k, v⟩ := c
    have hk : a < k := h (k, v) (by simp)
    rw [Memory.read_cons, if_neg (by omega)]
    exact ih fun c hc => h c (by simp [hc])

/-- A write leaves every other index alone. -/
theorem Memory.read_write_of_ne (m : Memory w) (a b : Nat) (v : BitVec w) (h : a ≠ b) :
    (m.write b v).read a = m.read a := by
  have hb : ¬ b = a := fun e => h e.symm
  induction m with
  | nil =>
    unfold Memory.write
    split
    · rfl
    · simp [Memory.read_cons, hb]
  | cons c m ih =>
    obtain ⟨k, x⟩ := c
    unfold Memory.write
    split
    · split
      · rfl
      · simp [Memory.read_cons, hb]
    · split
      · rename_i _ e
        have hka : ¬ k = a := e ▸ hb
        split <;> simp [Memory.read_cons, hb, hka]
      · simp [Memory.read_cons, ih]

/-- A read after a write to the same index gives the value written. -/
theorem Memory.read_write_same (m : Memory w) (a : Nat) (v : BitVec w) (hm : m.wf) :
    (m.write a v).read a = v := by
  induction m with
  | nil =>
    unfold Memory.write
    split
    · rename_i e; simp [e]
    · simp [Memory.read_cons]
  | cons c m ih =>
    obtain ⟨k, x⟩ := c
    obtain ⟨hs, hn⟩ := hm
    have hrest : ∀ c ∈ m, k < c.1 := fun c hc => (List.pairwise_cons.1 hs).1 c hc
    unfold Memory.write
    split
    · rename_i hlt
      split
      · rename_i e
        rw [e]
        refine Memory.read_of_lt _ _ fun c hc => ?_
        rcases List.mem_cons.1 hc with rfl | hc
        · exact hlt
        · exact lt_trans hlt (hrest c hc)
      · simp [Memory.read_cons]
    · split
      · rename_i e
        split
        · rename_i hv
          rw [hv]
          exact Memory.read_of_lt _ _ fun c hc => e ▸ hrest c hc
        · simp [Memory.read_cons]
      · rename_i h
        have hka : ¬ k = a := fun e => h e.symm
        rw [Memory.read_cons, if_neg hka]
        exact ih ⟨(List.pairwise_cons.1 hs).2, fun c hc => hn c (by simp [hc])⟩

/-- The entries of a memory after a write: old ones, or the one written. -/
theorem Memory.mem_write {m : Memory w} {a : Nat} {v : BitVec w} {c : Nat × BitVec w}
    (h : c ∈ m.write a v) : c ∈ m ∨ (c = (a, v) ∧ v ≠ Memory.unlisted w) := by
  induction m with
  | nil =>
    unfold Memory.write at h
    split at h
    · simp at h
    · rename_i hv; exact .inr ⟨by simpa using h, hv⟩
  | cons d m ih =>
    obtain ⟨k, x⟩ := d
    unfold Memory.write at h
    split at h
    · split at h
      · exact .inl h
      · rename_i hv
        rcases List.mem_cons.1 h with e | h
        · exact .inr ⟨e, hv⟩
        · exact .inl h
    · split at h
      · split at h
        · exact .inl (by simp [h])
        · rename_i hv
          rcases List.mem_cons.1 h with e | h
          · exact .inr ⟨e, hv⟩
          · exact .inl (by simp [h])
      · rcases List.mem_cons.1 h with rfl | h
        · exact .inl (by simp)
        · exact (ih h).imp (fun h => by simp [h]) id

/-- A write keeps the canonical form. -/
theorem Memory.write_wf (m : Memory w) (a : Nat) (v : BitVec w) (hm : m.wf) : (m.write a v).wf := by
  refine ⟨?_, fun c hc => ?_⟩
  · induction m with
    | nil =>
      unfold Memory.write
      split <;> simp
    | cons d m ih =>
      obtain ⟨k, x⟩ := d
      obtain ⟨hs, hn⟩ := hm
      have hk := List.pairwise_cons.1 hs
      unfold Memory.write
      split
      · rename_i hlt
        split
        · exact hs
        · refine List.pairwise_cons.2 ⟨fun c hc => ?_, hs⟩
          rcases List.mem_cons.1 hc with rfl | hc
          · exact hlt
          · exact lt_trans hlt (hk.1 c hc)
      · split
        · rename_i e
          split
          · exact hk.2
          · exact List.pairwise_cons.2 ⟨fun c hc => e ▸ hk.1 c hc, hk.2⟩
        · refine List.pairwise_cons.2 ⟨fun c hc => ?_, ih ⟨hk.2, fun c hc => hn c (by simp [hc])⟩⟩
          rcases Memory.mem_write hc with hc | ⟨rfl, -⟩
          · exact hk.1 c hc
          · simp only; omega
  · rcases Memory.mem_write hc with hc | ⟨rfl, hv⟩
    · exact hm.2 c hc
    · exact hv

/-- A write below `n` keeps every index below `n`. -/
theorem Memory.write_below (m : Memory w) (a : Nat) (v : BitVec w) (n : Nat) (hm : m.below n) (ha : a < n) :
    (m.write a v).below n := by
  intro c hc
  rcases Memory.mem_write hc with hc | ⟨rfl, -⟩
  · exact hm c hc
  · exact ha

@[simp] theorem Memory.writeFrom_nil (m : Memory w) (i : Nat) : m.writeFrom i [] = m := rfl

theorem Memory.writeFrom_cons (m : Memory w) (i : Nat) (v : BitVec w) (vs : List (BitVec w)) :
    m.writeFrom i (v :: vs) = (m.write i v).writeFrom (i + 1) vs := rfl

/-- Storing two sequences one after the other is storing them joined. -/
theorem Memory.writeFrom_append (m : Memory w) (i : Nat) (xs ys : List (BitVec w)) :
    m.writeFrom i (xs ++ ys) = (m.writeFrom i xs).writeFrom (i + xs.length) ys := by
  induction xs generalizing m i with
  | nil => simp
  | cons x xs ih =>
    simp only [List.cons_append, Memory.writeFrom_cons, ih, List.length_cons]
    congr 1; omega

/-- A stored sequence keeps the canonical form. -/
theorem Memory.writeFrom_wf (m : Memory w) (i : Nat) (vs : List (BitVec w)) (hm : m.wf) :
    (m.writeFrom i vs).wf := by
  induction vs generalizing m i with
  | nil => exact hm
  | cons v vs ih => exact ih _ _ (Memory.write_wf m i v hm)

/-- A sequence stored below `n` keeps every index below `n`. -/
theorem Memory.writeFrom_below (m : Memory w) (i : Nat) (vs : List (BitVec w)) (n : Nat) (hm : m.below n)
    (h : i + vs.length ≤ n) : (m.writeFrom i vs).below n := by
  induction vs generalizing m i with
  | nil => exact hm
  | cons v vs ih =>
    simp only [List.length_cons] at h
    exact ih _ _ (Memory.write_below m i v n hm (by omega)) (by omega)

/-- A stored sequence leaves every index outside it alone. -/
theorem Memory.read_writeFrom_outside (m : Memory w) (i a : Nat) (vs : List (BitVec w))
    (h : a < i ∨ i + vs.length ≤ a) : (m.writeFrom i vs).read a = m.read a := by
  induction vs generalizing m i with
  | nil => rfl
  | cons v vs ih =>
    simp only [List.length_cons] at h
    rw [Memory.writeFrom_cons, ih _ _ (by omega), Memory.read_write_of_ne _ _ _ _ (by omega)]

@[simp] theorem Memory.readFrom_zero (m : Memory w) (i : Nat) : m.readFrom i 0 = [] := rfl

theorem Memory.readFrom_succ (m : Memory w) (i n : Nat) :
    m.readFrom i (n + 1) = m.read i :: m.readFrom (i + 1) n := rfl

@[simp] theorem Memory.length_readFrom (m : Memory w) (i n : Nat) : (m.readFrom i n).length = n := by
  induction n generalizing i with
  | zero => rfl
  | succ n ih => simp [Memory.readFrom_succ, ih]

/-- Two memories that agree on the cells read give the same sequence. -/
theorem Memory.readFrom_congr {m m' : Memory w} {i n : Nat}
    (h : ∀ a, i ≤ a → a < i + n → m.read a = m'.read a) : m.readFrom i n = m'.readFrom i n := by
  induction n generalizing i with
  | zero => rfl
  | succ n ih =>
    rw [Memory.readFrom_succ, Memory.readFrom_succ, h i (by omega) (by omega),
      ih fun a ha hb => h a (by omega) (by omega)]

/-- Reading `m + n` cells is reading `m` and then `n`. -/
theorem Memory.readFrom_add (m : Memory w) (i k n : Nat) :
    m.readFrom i (k + n) = m.readFrom i k ++ m.readFrom (i + k) n := by
  induction k generalizing i with
  | zero => simp
  | succ k ih =>
    rw [show k + 1 + n = (k + n) + 1 by omega, Memory.readFrom_succ, Memory.readFrom_succ, ih,
      List.cons_append, show i + 1 + k = i + (k + 1) by omega]

/-- Reading back what was stored. -/
theorem Memory.readFrom_writeFrom (m : Memory w) (i : Nat) (vs : List (BitVec w)) (hm : m.wf) :
    (m.writeFrom i vs).readFrom i vs.length = vs := by
  induction vs generalizing m i with
  | nil => rfl
  | cons v vs ih =>
    rw [List.length_cons, Memory.readFrom_succ, Memory.writeFrom_cons,
      ih _ _ (Memory.write_wf m i v hm),
      Memory.read_writeFrom_outside _ _ _ _ (by omega), Memory.read_write_same _ _ _ hm]

/-- Storing a sequence after the cells read before it extends what is read. -/
theorem Memory.readFrom_writeFrom_append (m : Memory w) (k : Nat) (vs : List (BitVec w)) (hm : m.wf) :
    (m.writeFrom k vs).readFrom 0 (k + vs.length) = m.readFrom 0 k ++ vs := by
  rw [Memory.readFrom_add, Nat.zero_add, Memory.readFrom_writeFrom m k vs hm,
    Memory.readFrom_congr (m' := m) fun a _ h =>
      Memory.read_writeFrom_outside m k a vs (by omega)]

end Sys2Proof.Machine
end

