-- ==== Sys2Proof/Laws/State.lean ====
section
/-! SUPPORT. Laws/State.lean: one lemma per field per named update of the state, and what the derived
reads of the state see of an update. -/

namespace Sys2Proof.Machine

variable (s : State)

/-! ## `log` -/

@[simp] theorem log_st (e : Event) : (log e s).st = s.st := rfl
@[simp] theorem log_connOpen (e : Event) : (log e s).connOpen = s.connOpen := rfl
@[simp] theorem log_handle (e : Event) : (log e s).handle = s.handle := rfl
@[simp] theorem log_baud (e : Event) : (log e s).baud = s.baud := rfl
@[simp] theorem log_databits (e : Event) : (log e s).databits = s.databits := rfl
@[simp] theorem log_parity (e : Event) : (log e s).parity = s.parity := rfl
@[simp] theorem log_stopbits (e : Event) : (log e s).stopbits = s.stopbits := rfl
@[simp] theorem log_slave (e : Event) : (log e s).slave = s.slave := rfl
@[simp] theorem log_tSettle (e : Event) : (log e s).tSettle = s.tSettle := rfl
@[simp] theorem log_tResp (e : Event) : (log e s).tResp = s.tResp := rfl
@[simp] theorem log_tDrain (e : Event) : (log e s).tDrain = s.tDrain := rfl
@[simp] theorem log_op (e : Event) : (log e s).op = s.op := rfl
@[simp] theorem log_expFc (e : Event) : (log e s).expFc = s.expFc := rfl
@[simp] theorem log_reqCount (e : Event) : (log e s).reqCount = s.reqCount := rfl
@[simp] theorem log_err (e : Event) : (log e s).err = s.err := rfl
@[simp] theorem log_exc (e : Event) : (log e s).exc = s.exc := rfl
@[simp] theorem log_crc (e : Event) : (log e s).crc = s.crc := rfl
@[simp] theorem log_txbuf (e : Event) : (log e s).txbuf = s.txbuf := rfl
@[simp] theorem log_txLen (e : Event) : (log e s).txLen = s.txLen := rfl
@[simp] theorem log_rxbuf (e : Event) : (log e s).rxbuf = s.rxbuf := rfl
@[simp] theorem log_rxLen (e : Event) : (log e s).rxLen = s.rxLen := rfl
@[simp] theorem log_rem (e : Event) : (log e s).rem = s.rem := rfl
@[simp] theorem log_vbuf (e : Event) : (log e s).vbuf = s.vbuf := rfl
@[simp] theorem log_vLen (e : Event) : (log e s).vLen = s.vLen := rfl
@[simp] theorem log_cmd (e : Event) : (log e s).cmd = s.cmd := rfl
@[simp] theorem log_plWait (e : Event) : (log e s).plWait = s.plWait := rfl
@[simp] theorem log_plTaken (e : Event) : (log e s).plTaken = s.plTaken := rfl
@[simp] theorem log_plGood (e : Event) : (log e s).plGood = s.plGood := rfl
@[simp] theorem log_callWait (e : Event) : (log e s).callWait = s.callWait := rfl
@[simp] theorem log_rspOut (e : Event) : (log e s).rspOut = s.rspOut := rfl
@[simp] theorem log_rvOut (e : Event) : (log e s).rvOut = s.rvOut := rfl
@[simp] theorem log_cmdIn (e : Event) : (log e s).cmdIn = s.cmdIn := rfl
@[simp] theorem log_payload (e : Event) : (log e s).payload = s.payload := rfl
@[simp] theorem log_rspReady (e : Event) : (log e s).rspReady = s.rspReady := rfl
@[simp] theorem log_rvReady (e : Event) : (log e s).rvReady = s.rvReady := rfl
@[simp] theorem log_tReady (e : Event) : (log e s).tReady = s.tReady := rfl
@[simp] theorem log_twReady (e : Event) : (log e s).twReady = s.twReady := rfl
@[simp] theorem log_answers (e : Event) : (log e s).answers = s.answers := rfl
@[simp] theorem log_ticks (e : Event) : (log e s).ticks = s.ticks := rfl
@[simp] theorem log_rst (e : Event) : (log e s).rst = s.rst := rfl
@[simp] theorem log_trace (e : Event) : (log e s).trace = s.trace ++ [e] := rfl

/-! ## `issue` -/

@[simp] theorem issue_st (c : Call) : (issue c s).st = s.st := rfl
@[simp] theorem issue_connOpen (c : Call) : (issue c s).connOpen = s.connOpen := rfl
@[simp] theorem issue_handle (c : Call) : (issue c s).handle = s.handle := rfl
@[simp] theorem issue_baud (c : Call) : (issue c s).baud = s.baud := rfl
@[simp] theorem issue_databits (c : Call) : (issue c s).databits = s.databits := rfl
@[simp] theorem issue_parity (c : Call) : (issue c s).parity = s.parity := rfl
@[simp] theorem issue_stopbits (c : Call) : (issue c s).stopbits = s.stopbits := rfl
@[simp] theorem issue_slave (c : Call) : (issue c s).slave = s.slave := rfl
@[simp] theorem issue_tSettle (c : Call) : (issue c s).tSettle = s.tSettle := rfl
@[simp] theorem issue_tResp (c : Call) : (issue c s).tResp = s.tResp := rfl
@[simp] theorem issue_tDrain (c : Call) : (issue c s).tDrain = s.tDrain := rfl
@[simp] theorem issue_op (c : Call) : (issue c s).op = s.op := rfl
@[simp] theorem issue_expFc (c : Call) : (issue c s).expFc = s.expFc := rfl
@[simp] theorem issue_reqCount (c : Call) : (issue c s).reqCount = s.reqCount := rfl
@[simp] theorem issue_err (c : Call) : (issue c s).err = s.err := rfl
@[simp] theorem issue_exc (c : Call) : (issue c s).exc = s.exc := rfl
@[simp] theorem issue_crc (c : Call) : (issue c s).crc = s.crc := rfl
@[simp] theorem issue_txbuf (c : Call) : (issue c s).txbuf = s.txbuf := rfl
@[simp] theorem issue_txLen (c : Call) : (issue c s).txLen = s.txLen := rfl
@[simp] theorem issue_rxbuf (c : Call) : (issue c s).rxbuf = s.rxbuf := rfl
@[simp] theorem issue_rxLen (c : Call) : (issue c s).rxLen = s.rxLen := rfl
@[simp] theorem issue_rem (c : Call) : (issue c s).rem = s.rem := rfl
@[simp] theorem issue_vbuf (c : Call) : (issue c s).vbuf = s.vbuf := rfl
@[simp] theorem issue_vLen (c : Call) : (issue c s).vLen = s.vLen := rfl
@[simp] theorem issue_cmd (c : Call) : (issue c s).cmd = s.cmd := rfl
@[simp] theorem issue_plWait (c : Call) : (issue c s).plWait = decide (0 < c.nameLength) := rfl
@[simp] theorem issue_plTaken (c : Call) : (issue c s).plTaken = s.plTaken := rfl
@[simp] theorem issue_plGood (c : Call) : (issue c s).plGood = s.plGood := rfl
@[simp] theorem issue_callWait (c : Call) : (issue c s).callWait = false := rfl
@[simp] theorem issue_rspOut (c : Call) : (issue c s).rspOut = s.rspOut := rfl
@[simp] theorem issue_rvOut (c : Call) : (issue c s).rvOut = s.rvOut := rfl
@[simp] theorem issue_cmdIn (c : Call) : (issue c s).cmdIn = s.cmdIn := rfl
@[simp] theorem issue_payload (c : Call) : (issue c s).payload = s.payload := rfl
@[simp] theorem issue_rspReady (c : Call) : (issue c s).rspReady = s.rspReady := rfl
@[simp] theorem issue_rvReady (c : Call) : (issue c s).rvReady = s.rvReady := rfl
@[simp] theorem issue_tReady (c : Call) : (issue c s).tReady = s.tReady := rfl
@[simp] theorem issue_twReady (c : Call) : (issue c s).twReady = s.twReady := rfl
@[simp] theorem issue_answers (c : Call) : (issue c s).answers = s.answers := rfl
@[simp] theorem issue_ticks (c : Call) : (issue c s).ticks = s.ticks := rfl
@[simp] theorem issue_rst (c : Call) : (issue c s).rst = s.rst := rfl
@[simp] theorem issue_trace (c : Call) : (issue c s).trace = s.trace ++ [.call c] := rfl

/-! ## `accept` -/

@[simp] theorem accept_st (i : Instr) : (accept i s).st = s.st := rfl
@[simp] theorem accept_connOpen (i : Instr) : (accept i s).connOpen = s.connOpen := rfl
@[simp] theorem accept_handle (i : Instr) : (accept i s).handle = s.handle := rfl
@[simp] theorem accept_baud (i : Instr) : (accept i s).baud = s.baud := rfl
@[simp] theorem accept_databits (i : Instr) : (accept i s).databits = s.databits := rfl
@[simp] theorem accept_parity (i : Instr) : (accept i s).parity = s.parity := rfl
@[simp] theorem accept_stopbits (i : Instr) : (accept i s).stopbits = s.stopbits := rfl
@[simp] theorem accept_slave (i : Instr) : (accept i s).slave = s.slave := rfl
@[simp] theorem accept_tSettle (i : Instr) : (accept i s).tSettle = s.tSettle := rfl
@[simp] theorem accept_tResp (i : Instr) : (accept i s).tResp = s.tResp := rfl
@[simp] theorem accept_tDrain (i : Instr) : (accept i s).tDrain = s.tDrain := rfl
@[simp] theorem accept_op (i : Instr) : (accept i s).op = i.opcode := rfl
@[simp] theorem accept_expFc (i : Instr) : (accept i s).expFc = s.expFc := rfl
@[simp] theorem accept_reqCount (i : Instr) : (accept i s).reqCount = s.reqCount := rfl
@[simp] theorem accept_err (i : Instr) : (accept i s).err = s.err := rfl
@[simp] theorem accept_exc (i : Instr) : (accept i s).exc = s.exc := rfl
@[simp] theorem accept_crc (i : Instr) : (accept i s).crc = s.crc := rfl
@[simp] theorem accept_txbuf (i : Instr) : (accept i s).txbuf = s.txbuf := rfl
@[simp] theorem accept_txLen (i : Instr) : (accept i s).txLen = s.txLen := rfl
@[simp] theorem accept_rxbuf (i : Instr) : (accept i s).rxbuf = s.rxbuf := rfl
@[simp] theorem accept_rxLen (i : Instr) : (accept i s).rxLen = s.rxLen := rfl
@[simp] theorem accept_rem (i : Instr) : (accept i s).rem = s.rem := rfl
@[simp] theorem accept_vbuf (i : Instr) : (accept i s).vbuf = s.vbuf := rfl
@[simp] theorem accept_vLen (i : Instr) : (accept i s).vLen = s.vLen := rfl
@[simp] theorem accept_cmd (i : Instr) : (accept i s).cmd = some i := rfl
@[simp] theorem accept_plWait (i : Instr) : (accept i s).plWait = false := rfl
@[simp] theorem accept_plTaken (i : Instr) : (accept i s).plTaken = 0 := rfl
@[simp] theorem accept_plGood (i : Instr) : (accept i s).plGood = true := rfl
@[simp] theorem accept_callWait (i : Instr) : (accept i s).callWait = false := rfl
@[simp] theorem accept_rspOut (i : Instr) : (accept i s).rspOut = s.rspOut := rfl
@[simp] theorem accept_rvOut (i : Instr) : (accept i s).rvOut = s.rvOut := rfl
@[simp] theorem accept_cmdIn (i : Instr) : (accept i s).cmdIn = s.cmdIn := rfl
@[simp] theorem accept_payload (i : Instr) : (accept i s).payload = s.payload := rfl
@[simp] theorem accept_rspReady (i : Instr) : (accept i s).rspReady = s.rspReady := rfl
@[simp] theorem accept_rvReady (i : Instr) : (accept i s).rvReady = s.rvReady := rfl
@[simp] theorem accept_tReady (i : Instr) : (accept i s).tReady = s.tReady := rfl
@[simp] theorem accept_twReady (i : Instr) : (accept i s).twReady = s.twReady := rfl
@[simp] theorem accept_answers (i : Instr) : (accept i s).answers = s.answers := rfl
@[simp] theorem accept_ticks (i : Instr) : (accept i s).ticks = s.ticks := rfl
@[simp] theorem accept_rst (i : Instr) : (accept i s).rst = s.rst := rfl
@[simp] theorem accept_trace (i : Instr) : (accept i s).trace = s.trace ++ [.cmd i] := rfl

/-! ## `awaitPayload` -/

@[simp] theorem awaitPayload_st : (awaitPayload s).st = s.st := rfl
@[simp] theorem awaitPayload_connOpen : (awaitPayload s).connOpen = s.connOpen := rfl
@[simp] theorem awaitPayload_handle : (awaitPayload s).handle = s.handle := rfl
@[simp] theorem awaitPayload_baud : (awaitPayload s).baud = s.baud := rfl
@[simp] theorem awaitPayload_databits : (awaitPayload s).databits = s.databits := rfl
@[simp] theorem awaitPayload_parity : (awaitPayload s).parity = s.parity := rfl
@[simp] theorem awaitPayload_stopbits : (awaitPayload s).stopbits = s.stopbits := rfl
@[simp] theorem awaitPayload_slave : (awaitPayload s).slave = s.slave := rfl
@[simp] theorem awaitPayload_tSettle : (awaitPayload s).tSettle = s.tSettle := rfl
@[simp] theorem awaitPayload_tResp : (awaitPayload s).tResp = s.tResp := rfl
@[simp] theorem awaitPayload_tDrain : (awaitPayload s).tDrain = s.tDrain := rfl
@[simp] theorem awaitPayload_op : (awaitPayload s).op = s.op := rfl
@[simp] theorem awaitPayload_expFc : (awaitPayload s).expFc = s.expFc := rfl
@[simp] theorem awaitPayload_reqCount : (awaitPayload s).reqCount = s.reqCount := rfl
@[simp] theorem awaitPayload_err : (awaitPayload s).err = s.err := rfl
@[simp] theorem awaitPayload_exc : (awaitPayload s).exc = s.exc := rfl
@[simp] theorem awaitPayload_crc : (awaitPayload s).crc = s.crc := rfl
@[simp] theorem offerCall_tx : (offerCall s).tx = s.tx := rfl
@[simp] theorem offerCall_rx : (offerCall s).rx = s.rx := rfl
@[simp] theorem offerCall_values : (offerCall s).values = s.values := rfl
@[simp] theorem awaitPayload_txbuf : (awaitPayload s).txbuf = s.txbuf := rfl
@[simp] theorem awaitPayload_txLen : (awaitPayload s).txLen = s.txLen := rfl
@[simp] theorem awaitPayload_rxbuf : (awaitPayload s).rxbuf = s.rxbuf := rfl
@[simp] theorem awaitPayload_rxLen : (awaitPayload s).rxLen = s.rxLen := rfl
@[simp] theorem awaitPayload_rem : (awaitPayload s).rem = s.rem := rfl
@[simp] theorem awaitPayload_vbuf : (awaitPayload s).vbuf = s.vbuf := rfl
@[simp] theorem awaitPayload_vLen : (awaitPayload s).vLen = s.vLen := rfl
@[simp] theorem awaitPayload_cmd : (awaitPayload s).cmd = s.cmd := rfl
@[simp] theorem awaitPayload_plWait : (awaitPayload s).plWait = true := rfl
@[simp] theorem awaitPayload_plTaken : (awaitPayload s).plTaken = 0 := rfl
@[simp] theorem awaitPayload_plGood : (awaitPayload s).plGood = true := rfl
@[simp] theorem awaitPayload_callWait : (awaitPayload s).callWait = s.callWait := rfl
@[simp] theorem awaitPayload_rspOut : (awaitPayload s).rspOut = s.rspOut := rfl
@[simp] theorem awaitPayload_rvOut : (awaitPayload s).rvOut = s.rvOut := rfl
@[simp] theorem awaitPayload_cmdIn : (awaitPayload s).cmdIn = s.cmdIn := rfl
@[simp] theorem awaitPayload_payload : (awaitPayload s).payload = s.payload := rfl
@[simp] theorem awaitPayload_rspReady : (awaitPayload s).rspReady = s.rspReady := rfl
@[simp] theorem awaitPayload_rvReady : (awaitPayload s).rvReady = s.rvReady := rfl
@[simp] theorem awaitPayload_tReady : (awaitPayload s).tReady = s.tReady := rfl
@[simp] theorem awaitPayload_twReady : (awaitPayload s).twReady = s.twReady := rfl
@[simp] theorem awaitPayload_answers : (awaitPayload s).answers = s.answers := rfl
@[simp] theorem awaitPayload_ticks : (awaitPayload s).ticks = s.ticks := rfl
@[simp] theorem awaitPayload_rst : (awaitPayload s).rst = s.rst := rfl
@[simp] theorem awaitPayload_trace : (awaitPayload s).trace = s.trace := rfl

/-! ## `respond` -/

@[simp] theorem respond_st (c x : Byte) (n : Half) (vs : List Half) : (respond c x n vs s).st = s.st := rfl
@[simp] theorem respond_connOpen (c x : Byte) (n : Half) (vs : List Half) : (respond c x n vs s).connOpen = s.connOpen := rfl
@[simp] theorem respond_handle (c x : Byte) (n : Half) (vs : List Half) : (respond c x n vs s).handle = s.handle := rfl
@[simp] theorem respond_baud (c x : Byte) (n : Half) (vs : List Half) : (respond c x n vs s).baud = s.baud := rfl
@[simp] theorem respond_databits (c x : Byte) (n : Half) (vs : List Half) : (respond c x n vs s).databits = s.databits := rfl
@[simp] theorem respond_parity (c x : Byte) (n : Half) (vs : List Half) : (respond c x n vs s).parity = s.parity := rfl
@[simp] theorem respond_stopbits (c x : Byte) (n : Half) (vs : List Half) : (respond c x n vs s).stopbits = s.stopbits := rfl
@[simp] theorem respond_slave (c x : Byte) (n : Half) (vs : List Half) : (respond c x n vs s).slave = s.slave := rfl
@[simp] theorem respond_tSettle (c x : Byte) (n : Half) (vs : List Half) : (respond c x n vs s).tSettle = s.tSettle := rfl
@[simp] theorem respond_tResp (c x : Byte) (n : Half) (vs : List Half) : (respond c x n vs s).tResp = s.tResp := rfl
@[simp] theorem respond_tDrain (c x : Byte) (n : Half) (vs : List Half) : (respond c x n vs s).tDrain = s.tDrain := rfl
@[simp] theorem respond_op (c x : Byte) (n : Half) (vs : List Half) : (respond c x n vs s).op = s.op := rfl
@[simp] theorem respond_expFc (c x : Byte) (n : Half) (vs : List Half) : (respond c x n vs s).expFc = s.expFc := rfl
@[simp] theorem respond_reqCount (c x : Byte) (n : Half) (vs : List Half) : (respond c x n vs s).reqCount = s.reqCount := rfl
@[simp] theorem respond_err (c x : Byte) (n : Half) (vs : List Half) : (respond c x n vs s).err = s.err := rfl
@[simp] theorem respond_exc (c x : Byte) (n : Half) (vs : List Half) : (respond c x n vs s).exc = s.exc := rfl
@[simp] theorem respond_crc (c x : Byte) (n : Half) (vs : List Half) : (respond c x n vs s).crc = s.crc := rfl
@[simp] theorem respond_txbuf (c x : Byte) (n : Half) (vs : List Half) : (respond c x n vs s).txbuf = s.txbuf := rfl
@[simp] theorem respond_txLen (c x : Byte) (n : Half) (vs : List Half) : (respond c x n vs s).txLen = s.txLen := rfl
@[simp] theorem respond_rxbuf (c x : Byte) (n : Half) (vs : List Half) : (respond c x n vs s).rxbuf = s.rxbuf := rfl
@[simp] theorem respond_rxLen (c x : Byte) (n : Half) (vs : List Half) : (respond c x n vs s).rxLen = s.rxLen := rfl
@[simp] theorem respond_rem (c x : Byte) (n : Half) (vs : List Half) : (respond c x n vs s).rem = s.rem := rfl
@[simp] theorem respond_vbuf (c x : Byte) (n : Half) (vs : List Half) : (respond c x n vs s).vbuf = s.vbuf := rfl
@[simp] theorem respond_vLen (c x : Byte) (n : Half) (vs : List Half) : (respond c x n vs s).vLen = s.vLen := rfl
@[simp] theorem respond_cmd (c x : Byte) (n : Half) (vs : List Half) : (respond c x n vs s).cmd = s.cmd := rfl
@[simp] theorem respond_plWait (c x : Byte) (n : Half) (vs : List Half) : (respond c x n vs s).plWait = s.plWait := rfl
@[simp] theorem respond_plTaken (c x : Byte) (n : Half) (vs : List Half) : (respond c x n vs s).plTaken = s.plTaken := rfl
@[simp] theorem respond_plGood (c x : Byte) (n : Half) (vs : List Half) : (respond c x n vs s).plGood = s.plGood := rfl
@[simp] theorem respond_callWait (c x : Byte) (n : Half) (vs : List Half) : (respond c x n vs s).callWait = s.callWait := rfl
@[simp] theorem respond_rspOut (c x : Byte) (n : Half) (vs : List Half) : (respond c x n vs s).rspOut = some ⟨c, x, n⟩ := rfl
@[simp] theorem respond_rvOut (c x : Byte) (n : Half) (vs : List Half) : (respond c x n vs s).rvOut = vs := rfl
@[simp] theorem respond_cmdIn (c x : Byte) (n : Half) (vs : List Half) : (respond c x n vs s).cmdIn = s.cmdIn := rfl
@[simp] theorem respond_payload (c x : Byte) (n : Half) (vs : List Half) : (respond c x n vs s).payload = s.payload := rfl
@[simp] theorem respond_rspReady (c x : Byte) (n : Half) (vs : List Half) : (respond c x n vs s).rspReady = s.rspReady := rfl
@[simp] theorem respond_rvReady (c x : Byte) (n : Half) (vs : List Half) : (respond c x n vs s).rvReady = s.rvReady := rfl
@[simp] theorem respond_tReady (c x : Byte) (n : Half) (vs : List Half) : (respond c x n vs s).tReady = s.tReady := rfl
@[simp] theorem respond_twReady (c x : Byte) (n : Half) (vs : List Half) : (respond c x n vs s).twReady = s.twReady := rfl
@[simp] theorem respond_answers (c x : Byte) (n : Half) (vs : List Half) : (respond c x n vs s).answers = s.answers := rfl
@[simp] theorem respond_ticks (c x : Byte) (n : Half) (vs : List Half) : (respond c x n vs s).ticks = s.ticks := rfl
@[simp] theorem respond_rst (c x : Byte) (n : Half) (vs : List Half) : (respond c x n vs s).rst = s.rst := rfl
@[simp] theorem respond_trace (c x : Byte) (n : Half) (vs : List Half) : (respond c x n vs s).trace = s.trace := rfl

/-! ## `deliver` -/

@[simp] theorem deliver_st (r : Response) : (deliver r s).st = s.st := rfl
@[simp] theorem deliver_connOpen (r : Response) : (deliver r s).connOpen = s.connOpen := rfl
@[simp] theorem deliver_handle (r : Response) : (deliver r s).handle = s.handle := rfl
@[simp] theorem deliver_baud (r : Response) : (deliver r s).baud = s.baud := rfl
@[simp] theorem deliver_databits (r : Response) : (deliver r s).databits = s.databits := rfl
@[simp] theorem deliver_parity (r : Response) : (deliver r s).parity = s.parity := rfl
@[simp] theorem deliver_stopbits (r : Response) : (deliver r s).stopbits = s.stopbits := rfl
@[simp] theorem deliver_slave (r : Response) : (deliver r s).slave = s.slave := rfl
@[simp] theorem deliver_tSettle (r : Response) : (deliver r s).tSettle = s.tSettle := rfl
@[simp] theorem deliver_tResp (r : Response) : (deliver r s).tResp = s.tResp := rfl
@[simp] theorem deliver_tDrain (r : Response) : (deliver r s).tDrain = s.tDrain := rfl
@[simp] theorem deliver_op (r : Response) : (deliver r s).op = s.op := rfl
@[simp] theorem deliver_expFc (r : Response) : (deliver r s).expFc = s.expFc := rfl
@[simp] theorem deliver_reqCount (r : Response) : (deliver r s).reqCount = s.reqCount := rfl
@[simp] theorem deliver_err (r : Response) : (deliver r s).err = s.err := rfl
@[simp] theorem deliver_exc (r : Response) : (deliver r s).exc = s.exc := rfl
@[simp] theorem deliver_crc (r : Response) : (deliver r s).crc = s.crc := rfl
@[simp] theorem deliver_txbuf (r : Response) : (deliver r s).txbuf = s.txbuf := rfl
@[simp] theorem deliver_txLen (r : Response) : (deliver r s).txLen = s.txLen := rfl
@[simp] theorem deliver_rxbuf (r : Response) : (deliver r s).rxbuf = s.rxbuf := rfl
@[simp] theorem deliver_rxLen (r : Response) : (deliver r s).rxLen = s.rxLen := rfl
@[simp] theorem deliver_rem (r : Response) : (deliver r s).rem = s.rem := rfl
@[simp] theorem deliver_vbuf (r : Response) : (deliver r s).vbuf = s.vbuf := rfl
@[simp] theorem deliver_vLen (r : Response) : (deliver r s).vLen = s.vLen := rfl
@[simp] theorem deliver_cmd (r : Response) :
    (deliver r s).cmd = if s.rvOut = [] then none else s.cmd := rfl
@[simp] theorem deliver_plWait (r : Response) : (deliver r s).plWait = s.plWait := rfl
@[simp] theorem deliver_plTaken (r : Response) : (deliver r s).plTaken = s.plTaken := rfl
@[simp] theorem deliver_plGood (r : Response) : (deliver r s).plGood = s.plGood := rfl
@[simp] theorem deliver_callWait (r : Response) : (deliver r s).callWait = s.callWait := rfl
@[simp] theorem deliver_rspOut (r : Response) : (deliver r s).rspOut = none := rfl
@[simp] theorem deliver_rvOut (r : Response) : (deliver r s).rvOut = s.rvOut := rfl
@[simp] theorem deliver_cmdIn (r : Response) : (deliver r s).cmdIn = s.cmdIn := rfl
@[simp] theorem deliver_payload (r : Response) : (deliver r s).payload = s.payload := rfl
@[simp] theorem deliver_rspReady (r : Response) : (deliver r s).rspReady = s.rspReady := rfl
@[simp] theorem deliver_rvReady (r : Response) : (deliver r s).rvReady = s.rvReady := rfl
@[simp] theorem deliver_tReady (r : Response) : (deliver r s).tReady = s.tReady := rfl
@[simp] theorem deliver_twReady (r : Response) : (deliver r s).twReady = s.twReady := rfl
@[simp] theorem deliver_answers (r : Response) : (deliver r s).answers = s.answers := rfl
@[simp] theorem deliver_ticks (r : Response) : (deliver r s).ticks = s.ticks := rfl
@[simp] theorem deliver_rst (r : Response) : (deliver r s).rst = s.rst := rfl
@[simp] theorem deliver_trace (r : Response) : (deliver r s).trace = s.trace ++ [.rsp r] := rfl

/-! ## `deliverValue` -/

@[simp] theorem deliverValue_st (v : Half) (rest : List Half) : (deliverValue v rest s).st = s.st := rfl
@[simp] theorem deliverValue_connOpen (v : Half) (rest : List Half) : (deliverValue v rest s).connOpen = s.connOpen := rfl
@[simp] theorem deliverValue_handle (v : Half) (rest : List Half) : (deliverValue v rest s).handle = s.handle := rfl
@[simp] theorem deliverValue_baud (v : Half) (rest : List Half) : (deliverValue v rest s).baud = s.baud := rfl
@[simp] theorem deliverValue_databits (v : Half) (rest : List Half) : (deliverValue v rest s).databits = s.databits := rfl
@[simp] theorem deliverValue_parity (v : Half) (rest : List Half) : (deliverValue v rest s).parity = s.parity := rfl
@[simp] theorem deliverValue_stopbits (v : Half) (rest : List Half) : (deliverValue v rest s).stopbits = s.stopbits := rfl
@[simp] theorem deliverValue_slave (v : Half) (rest : List Half) : (deliverValue v rest s).slave = s.slave := rfl
@[simp] theorem deliverValue_tSettle (v : Half) (rest : List Half) : (deliverValue v rest s).tSettle = s.tSettle := rfl
@[simp] theorem deliverValue_tResp (v : Half) (rest : List Half) : (deliverValue v rest s).tResp = s.tResp := rfl
@[simp] theorem deliverValue_tDrain (v : Half) (rest : List Half) : (deliverValue v rest s).tDrain = s.tDrain := rfl
@[simp] theorem deliverValue_op (v : Half) (rest : List Half) : (deliverValue v rest s).op = s.op := rfl
@[simp] theorem deliverValue_expFc (v : Half) (rest : List Half) : (deliverValue v rest s).expFc = s.expFc := rfl
@[simp] theorem deliverValue_reqCount (v : Half) (rest : List Half) : (deliverValue v rest s).reqCount = s.reqCount := rfl
@[simp] theorem deliverValue_err (v : Half) (rest : List Half) : (deliverValue v rest s).err = s.err := rfl
@[simp] theorem deliverValue_exc (v : Half) (rest : List Half) : (deliverValue v rest s).exc = s.exc := rfl
@[simp] theorem deliverValue_crc (v : Half) (rest : List Half) : (deliverValue v rest s).crc = s.crc := rfl
@[simp] theorem deliverValue_txbuf (v : Half) (rest : List Half) : (deliverValue v rest s).txbuf = s.txbuf := rfl
@[simp] theorem deliverValue_txLen (v : Half) (rest : List Half) : (deliverValue v rest s).txLen = s.txLen := rfl
@[simp] theorem deliverValue_rxbuf (v : Half) (rest : List Half) : (deliverValue v rest s).rxbuf = s.rxbuf := rfl
@[simp] theorem deliverValue_rxLen (v : Half) (rest : List Half) : (deliverValue v rest s).rxLen = s.rxLen := rfl
@[simp] theorem deliverValue_rem (v : Half) (rest : List Half) : (deliverValue v rest s).rem = s.rem := rfl
@[simp] theorem deliverValue_vbuf (v : Half) (rest : List Half) : (deliverValue v rest s).vbuf = s.vbuf := rfl
@[simp] theorem deliverValue_vLen (v : Half) (rest : List Half) :
    (deliverValue v rest s).vLen = if rest = [] then 0 else s.vLen := rfl
@[simp] theorem deliverValue_cmd (v : Half) (rest : List Half) :
    (deliverValue v rest s).cmd = if rest = [] then none else s.cmd := rfl
@[simp] theorem deliverValue_plWait (v : Half) (rest : List Half) : (deliverValue v rest s).plWait = s.plWait := rfl
@[simp] theorem deliverValue_plTaken (v : Half) (rest : List Half) : (deliverValue v rest s).plTaken = s.plTaken := rfl
@[simp] theorem deliverValue_plGood (v : Half) (rest : List Half) : (deliverValue v rest s).plGood = s.plGood := rfl
@[simp] theorem deliverValue_callWait (v : Half) (rest : List Half) : (deliverValue v rest s).callWait = s.callWait := rfl
@[simp] theorem deliverValue_rspOut (v : Half) (rest : List Half) : (deliverValue v rest s).rspOut = s.rspOut := rfl
@[simp] theorem deliverValue_rvOut (v : Half) (rest : List Half) : (deliverValue v rest s).rvOut = rest := rfl
@[simp] theorem deliverValue_cmdIn (v : Half) (rest : List Half) : (deliverValue v rest s).cmdIn = s.cmdIn := rfl
@[simp] theorem deliverValue_payload (v : Half) (rest : List Half) : (deliverValue v rest s).payload = s.payload := rfl
@[simp] theorem deliverValue_rspReady (v : Half) (rest : List Half) : (deliverValue v rest s).rspReady = s.rspReady := rfl
@[simp] theorem deliverValue_rvReady (v : Half) (rest : List Half) : (deliverValue v rest s).rvReady = s.rvReady := rfl
@[simp] theorem deliverValue_tReady (v : Half) (rest : List Half) : (deliverValue v rest s).tReady = s.tReady := rfl
@[simp] theorem deliverValue_twReady (v : Half) (rest : List Half) : (deliverValue v rest s).twReady = s.twReady := rfl
@[simp] theorem deliverValue_answers (v : Half) (rest : List Half) : (deliverValue v rest s).answers = s.answers := rfl
@[simp] theorem deliverValue_ticks (v : Half) (rest : List Half) : (deliverValue v rest s).ticks = s.ticks := rfl
@[simp] theorem deliverValue_rst (v : Half) (rest : List Half) : (deliverValue v rest s).rst = s.rst := rfl
@[simp] theorem deliverValue_trace (v : Half) (rest : List Half) : (deliverValue v rest s).trace = s.trace ++ [.value v] := rfl

/-! ## `takeBeat` -/

@[simp] theorem takeBeat_st (i : Instr) (beat : Word) (rest : List Word) : (takeBeat i beat rest s).st = s.st := rfl
@[simp] theorem takeBeat_connOpen (i : Instr) (beat : Word) (rest : List Word) : (takeBeat i beat rest s).connOpen = s.connOpen := rfl
@[simp] theorem takeBeat_handle (i : Instr) (beat : Word) (rest : List Word) : (takeBeat i beat rest s).handle = s.handle := rfl
@[simp] theorem takeBeat_baud (i : Instr) (beat : Word) (rest : List Word) : (takeBeat i beat rest s).baud = s.baud := rfl
@[simp] theorem takeBeat_databits (i : Instr) (beat : Word) (rest : List Word) : (takeBeat i beat rest s).databits = s.databits := rfl
@[simp] theorem takeBeat_parity (i : Instr) (beat : Word) (rest : List Word) : (takeBeat i beat rest s).parity = s.parity := rfl
@[simp] theorem takeBeat_stopbits (i : Instr) (beat : Word) (rest : List Word) : (takeBeat i beat rest s).stopbits = s.stopbits := rfl
@[simp] theorem takeBeat_slave (i : Instr) (beat : Word) (rest : List Word) : (takeBeat i beat rest s).slave = s.slave := rfl
@[simp] theorem takeBeat_tSettle (i : Instr) (beat : Word) (rest : List Word) : (takeBeat i beat rest s).tSettle = s.tSettle := rfl
@[simp] theorem takeBeat_tResp (i : Instr) (beat : Word) (rest : List Word) : (takeBeat i beat rest s).tResp = s.tResp := rfl
@[simp] theorem takeBeat_tDrain (i : Instr) (beat : Word) (rest : List Word) : (takeBeat i beat rest s).tDrain = s.tDrain := rfl
@[simp] theorem takeBeat_op (i : Instr) (beat : Word) (rest : List Word) : (takeBeat i beat rest s).op = s.op := rfl
@[simp] theorem takeBeat_expFc (i : Instr) (beat : Word) (rest : List Word) : (takeBeat i beat rest s).expFc = s.expFc := rfl
@[simp] theorem takeBeat_reqCount (i : Instr) (beat : Word) (rest : List Word) : (takeBeat i beat rest s).reqCount = s.reqCount := rfl
@[simp] theorem takeBeat_err (i : Instr) (beat : Word) (rest : List Word) : (takeBeat i beat rest s).err = s.err := rfl
@[simp] theorem takeBeat_exc (i : Instr) (beat : Word) (rest : List Word) : (takeBeat i beat rest s).exc = s.exc := rfl
@[simp] theorem takeBeat_crc (i : Instr) (beat : Word) (rest : List Word) :
    (takeBeat i beat rest s).crc = beatCrc i s.plTaken beat s.crc := rfl
@[simp] theorem takeBeat_txbuf (i : Instr) (beat : Word) (rest : List Word) : (takeBeat i beat rest s).txbuf = s.txbuf := rfl
@[simp] theorem takeBeat_txLen (i : Instr) (beat : Word) (rest : List Word) : (takeBeat i beat rest s).txLen = s.txLen := rfl
@[simp] theorem takeBeat_rxbuf (i : Instr) (beat : Word) (rest : List Word) : (takeBeat i beat rest s).rxbuf = s.rxbuf := rfl
@[simp] theorem takeBeat_rxLen (i : Instr) (beat : Word) (rest : List Word) : (takeBeat i beat rest s).rxLen = s.rxLen := rfl
@[simp] theorem takeBeat_rem (i : Instr) (beat : Word) (rest : List Word) : (takeBeat i beat rest s).rem = s.rem := rfl
@[simp] theorem takeBeat_vbuf (i : Instr) (beat : Word) (rest : List Word) :
    (takeBeat i beat rest s).vbuf = beatStore i s.plTaken beat s.plGood s.vbuf := rfl
@[simp] theorem takeBeat_vLen (i : Instr) (beat : Word) (rest : List Word) : (takeBeat i beat rest s).vLen = s.vLen := rfl
@[simp] theorem takeBeat_cmd (i : Instr) (beat : Word) (rest : List Word) : (takeBeat i beat rest s).cmd = s.cmd := rfl
@[simp] theorem takeBeat_plWait (i : Instr) (beat : Word) (rest : List Word) : (takeBeat i beat rest s).plWait = s.plWait := rfl
@[simp] theorem takeBeat_plTaken (i : Instr) (beat : Word) (rest : List Word) : (takeBeat i beat rest s).plTaken = s.plTaken + 1 := rfl
@[simp] theorem takeBeat_plGood (i : Instr) (beat : Word) (rest : List Word) :
    (takeBeat i beat rest s).plGood = beatGood i s.plTaken beat s.crc s.plGood := rfl
@[simp] theorem takeBeat_callWait (i : Instr) (beat : Word) (rest : List Word) : (takeBeat i beat rest s).callWait = s.callWait := rfl
@[simp] theorem takeBeat_rspOut (i : Instr) (beat : Word) (rest : List Word) : (takeBeat i beat rest s).rspOut = s.rspOut := rfl
@[simp] theorem takeBeat_rvOut (i : Instr) (beat : Word) (rest : List Word) : (takeBeat i beat rest s).rvOut = s.rvOut := rfl
@[simp] theorem takeBeat_cmdIn (i : Instr) (beat : Word) (rest : List Word) : (takeBeat i beat rest s).cmdIn = s.cmdIn := rfl
@[simp] theorem takeBeat_payload (i : Instr) (beat : Word) (rest : List Word) : (takeBeat i beat rest s).payload = rest := rfl
@[simp] theorem takeBeat_rspReady (i : Instr) (beat : Word) (rest : List Word) : (takeBeat i beat rest s).rspReady = s.rspReady := rfl
@[simp] theorem takeBeat_rvReady (i : Instr) (beat : Word) (rest : List Word) : (takeBeat i beat rest s).rvReady = s.rvReady := rfl
@[simp] theorem takeBeat_tReady (i : Instr) (beat : Word) (rest : List Word) : (takeBeat i beat rest s).tReady = s.tReady := rfl
@[simp] theorem takeBeat_twReady (i : Instr) (beat : Word) (rest : List Word) : (takeBeat i beat rest s).twReady = s.twReady := rfl
@[simp] theorem takeBeat_answers (i : Instr) (beat : Word) (rest : List Word) : (takeBeat i beat rest s).answers = s.answers := rfl
@[simp] theorem takeBeat_ticks (i : Instr) (beat : Word) (rest : List Word) : (takeBeat i beat rest s).ticks = s.ticks := rfl
@[simp] theorem takeBeat_rst (i : Instr) (beat : Word) (rest : List Word) : (takeBeat i beat rest s).rst = s.rst := rfl
@[simp] theorem takeBeat_trace (i : Instr) (beat : Word) (rest : List Word) : (takeBeat i beat rest s).trace = s.trace ++ [.payload beat] := rfl

/-! ## `forwardByte` -/

@[simp] theorem forwardByte_st (n : Nat) (beat : Word) (rest : List Word) :
    (forwardByte n beat rest s).st = s.st := rfl
@[simp] theorem forwardByte_connOpen (n : Nat) (beat : Word) (rest : List Word) :
    (forwardByte n beat rest s).connOpen = s.connOpen := rfl
@[simp] theorem forwardByte_handle (n : Nat) (beat : Word) (rest : List Word) :
    (forwardByte n beat rest s).handle = s.handle := rfl
@[simp] theorem forwardByte_baud (n : Nat) (beat : Word) (rest : List Word) :
    (forwardByte n beat rest s).baud = s.baud := rfl
@[simp] theorem forwardByte_databits (n : Nat) (beat : Word) (rest : List Word) :
    (forwardByte n beat rest s).databits = s.databits := rfl
@[simp] theorem forwardByte_parity (n : Nat) (beat : Word) (rest : List Word) :
    (forwardByte n beat rest s).parity = s.parity := rfl
@[simp] theorem forwardByte_stopbits (n : Nat) (beat : Word) (rest : List Word) :
    (forwardByte n beat rest s).stopbits = s.stopbits := rfl
@[simp] theorem forwardByte_slave (n : Nat) (beat : Word) (rest : List Word) :
    (forwardByte n beat rest s).slave = s.slave := rfl
@[simp] theorem forwardByte_tSettle (n : Nat) (beat : Word) (rest : List Word) :
    (forwardByte n beat rest s).tSettle = s.tSettle := rfl
@[simp] theorem forwardByte_tResp (n : Nat) (beat : Word) (rest : List Word) :
    (forwardByte n beat rest s).tResp = s.tResp := rfl
@[simp] theorem forwardByte_tDrain (n : Nat) (beat : Word) (rest : List Word) :
    (forwardByte n beat rest s).tDrain = s.tDrain := rfl
@[simp] theorem forwardByte_op (n : Nat) (beat : Word) (rest : List Word) :
    (forwardByte n beat rest s).op = s.op := rfl
@[simp] theorem forwardByte_expFc (n : Nat) (beat : Word) (rest : List Word) :
    (forwardByte n beat rest s).expFc = s.expFc := rfl
@[simp] theorem forwardByte_reqCount (n : Nat) (beat : Word) (rest : List Word) :
    (forwardByte n beat rest s).reqCount = s.reqCount := rfl
@[simp] theorem forwardByte_err (n : Nat) (beat : Word) (rest : List Word) :
    (forwardByte n beat rest s).err = s.err := rfl
@[simp] theorem forwardByte_exc (n : Nat) (beat : Word) (rest : List Word) :
    (forwardByte n beat rest s).exc = s.exc := rfl
@[simp] theorem forwardByte_crc (n : Nat) (beat : Word) (rest : List Word) :
    (forwardByte n beat rest s).crc = s.crc := rfl
@[simp] theorem forwardByte_txbuf (n : Nat) (beat : Word) (rest : List Word) :
    (forwardByte n beat rest s).txbuf = s.txbuf := rfl
@[simp] theorem forwardByte_txLen (n : Nat) (beat : Word) (rest : List Word) :
    (forwardByte n beat rest s).txLen = s.txLen := rfl
@[simp] theorem forwardByte_rxbuf (n : Nat) (beat : Word) (rest : List Word) :
    (forwardByte n beat rest s).rxbuf = s.rxbuf := rfl
@[simp] theorem forwardByte_rxLen (n : Nat) (beat : Word) (rest : List Word) :
    (forwardByte n beat rest s).rxLen = s.rxLen := rfl
@[simp] theorem forwardByte_rem (n : Nat) (beat : Word) (rest : List Word) :
    (forwardByte n beat rest s).rem = s.rem := rfl
@[simp] theorem forwardByte_vbuf (n : Nat) (beat : Word) (rest : List Word) :
    (forwardByte n beat rest s).vbuf = s.vbuf := rfl
@[simp] theorem forwardByte_vLen (n : Nat) (beat : Word) (rest : List Word) :
    (forwardByte n beat rest s).vLen = s.vLen := rfl
@[simp] theorem forwardByte_cmd (n : Nat) (beat : Word) (rest : List Word) :
    (forwardByte n beat rest s).cmd = s.cmd := rfl
@[simp] theorem forwardByte_plWait (n : Nat) (beat : Word) (rest : List Word) :
    (forwardByte n beat rest s).plWait = decide (s.plTaken + 1 < n) := rfl
@[simp] theorem forwardByte_plTaken (n : Nat) (beat : Word) (rest : List Word) :
    (forwardByte n beat rest s).plTaken = if s.plTaken + 1 < n then s.plTaken + 1 else 0 := rfl
@[simp] theorem forwardByte_plGood (n : Nat) (beat : Word) (rest : List Word) :
    (forwardByte n beat rest s).plGood = s.plGood := rfl
@[simp] theorem forwardByte_callWait (n : Nat) (beat : Word) (rest : List Word) :
    (forwardByte n beat rest s).callWait = s.callWait := rfl
@[simp] theorem forwardByte_rspOut (n : Nat) (beat : Word) (rest : List Word) :
    (forwardByte n beat rest s).rspOut = s.rspOut := rfl
@[simp] theorem forwardByte_rvOut (n : Nat) (beat : Word) (rest : List Word) :
    (forwardByte n beat rest s).rvOut = s.rvOut := rfl
@[simp] theorem forwardByte_cmdIn (n : Nat) (beat : Word) (rest : List Word) :
    (forwardByte n beat rest s).cmdIn = s.cmdIn := rfl
@[simp] theorem forwardByte_payload (n : Nat) (beat : Word) (rest : List Word) :
    (forwardByte n beat rest s).payload = rest := rfl
@[simp] theorem forwardByte_rspReady (n : Nat) (beat : Word) (rest : List Word) :
    (forwardByte n beat rest s).rspReady = s.rspReady := rfl
@[simp] theorem forwardByte_rvReady (n : Nat) (beat : Word) (rest : List Word) :
    (forwardByte n beat rest s).rvReady = s.rvReady := rfl
@[simp] theorem forwardByte_tReady (n : Nat) (beat : Word) (rest : List Word) :
    (forwardByte n beat rest s).tReady = s.tReady := rfl
@[simp] theorem forwardByte_twReady (n : Nat) (beat : Word) (rest : List Word) :
    (forwardByte n beat rest s).twReady = s.twReady := rfl
@[simp] theorem forwardByte_answers (n : Nat) (beat : Word) (rest : List Word) :
    (forwardByte n beat rest s).answers = s.answers := rfl
@[simp] theorem forwardByte_ticks (n : Nat) (beat : Word) (rest : List Word) :
    (forwardByte n beat rest s).ticks = s.ticks := rfl
@[simp] theorem forwardByte_rst (n : Nat) (beat : Word) (rest : List Word) :
    (forwardByte n beat rest s).rst = s.rst := rfl
@[simp] theorem forwardByte_trace (n : Nat) (beat : Word) (rest : List Word) :
    (forwardByte n beat rest s).trace = s.trace ++ [.forward beat (beatByte beat)] := rfl

/-! ## `offerCall` -/

@[simp] theorem offerCall_st : (offerCall s).st = s.st := rfl
@[simp] theorem offerCall_connOpen : (offerCall s).connOpen = s.connOpen := rfl
@[simp] theorem offerCall_handle : (offerCall s).handle = s.handle := rfl
@[simp] theorem offerCall_baud : (offerCall s).baud = s.baud := rfl
@[simp] theorem offerCall_databits : (offerCall s).databits = s.databits := rfl
@[simp] theorem offerCall_parity : (offerCall s).parity = s.parity := rfl
@[simp] theorem offerCall_stopbits : (offerCall s).stopbits = s.stopbits := rfl
@[simp] theorem offerCall_slave : (offerCall s).slave = s.slave := rfl
@[simp] theorem offerCall_tSettle : (offerCall s).tSettle = s.tSettle := rfl
@[simp] theorem offerCall_tResp : (offerCall s).tResp = s.tResp := rfl
@[simp] theorem offerCall_tDrain : (offerCall s).tDrain = s.tDrain := rfl
@[simp] theorem offerCall_op : (offerCall s).op = s.op := rfl
@[simp] theorem offerCall_expFc : (offerCall s).expFc = s.expFc := rfl
@[simp] theorem offerCall_reqCount : (offerCall s).reqCount = s.reqCount := rfl
@[simp] theorem offerCall_err : (offerCall s).err = s.err := rfl
@[simp] theorem offerCall_exc : (offerCall s).exc = s.exc := rfl
@[simp] theorem offerCall_crc : (offerCall s).crc = s.crc := rfl
@[simp] theorem offerCall_txbuf : (offerCall s).txbuf = s.txbuf := rfl
@[simp] theorem offerCall_txLen : (offerCall s).txLen = s.txLen := rfl
@[simp] theorem offerCall_rxbuf : (offerCall s).rxbuf = s.rxbuf := rfl
@[simp] theorem offerCall_rxLen : (offerCall s).rxLen = s.rxLen := rfl
@[simp] theorem offerCall_rem : (offerCall s).rem = s.rem := rfl
@[simp] theorem offerCall_vbuf : (offerCall s).vbuf = s.vbuf := rfl
@[simp] theorem offerCall_vLen : (offerCall s).vLen = s.vLen := rfl
@[simp] theorem offerCall_cmd : (offerCall s).cmd = s.cmd := rfl
@[simp] theorem offerCall_plWait : (offerCall s).plWait = s.plWait := rfl
@[simp] theorem offerCall_plTaken : (offerCall s).plTaken = s.plTaken := rfl
@[simp] theorem offerCall_plGood : (offerCall s).plGood = s.plGood := rfl
@[simp] theorem offerCall_callWait : (offerCall s).callWait = true := rfl
@[simp] theorem offerCall_rspOut : (offerCall s).rspOut = s.rspOut := rfl
@[simp] theorem offerCall_rvOut : (offerCall s).rvOut = s.rvOut := rfl
@[simp] theorem offerCall_cmdIn : (offerCall s).cmdIn = s.cmdIn := rfl
@[simp] theorem offerCall_payload : (offerCall s).payload = s.payload := rfl
@[simp] theorem offerCall_rspReady : (offerCall s).rspReady = s.rspReady := rfl
@[simp] theorem offerCall_rvReady : (offerCall s).rvReady = s.rvReady := rfl
@[simp] theorem offerCall_tReady : (offerCall s).tReady = s.tReady := rfl
@[simp] theorem offerCall_twReady : (offerCall s).twReady = s.twReady := rfl
@[simp] theorem offerCall_answers : (offerCall s).answers = s.answers := rfl
@[simp] theorem offerCall_ticks : (offerCall s).ticks = s.ticks := rfl
@[simp] theorem offerCall_rst : (offerCall s).rst = s.rst := rfl
@[simp] theorem offerCall_trace : (offerCall s).trace = s.trace := rfl

/-! ## `failFlush` -/

@[simp] theorem failFlush_st (e : Status) (c : Byte) : (failFlush e c s).st = .sErrFlush := rfl
@[simp] theorem failFlush_connOpen (e : Status) (c : Byte) : (failFlush e c s).connOpen = s.connOpen := rfl
@[simp] theorem failFlush_handle (e : Status) (c : Byte) : (failFlush e c s).handle = s.handle := rfl
@[simp] theorem failFlush_baud (e : Status) (c : Byte) : (failFlush e c s).baud = s.baud := rfl
@[simp] theorem failFlush_databits (e : Status) (c : Byte) : (failFlush e c s).databits = s.databits := rfl
@[simp] theorem failFlush_parity (e : Status) (c : Byte) : (failFlush e c s).parity = s.parity := rfl
@[simp] theorem failFlush_stopbits (e : Status) (c : Byte) : (failFlush e c s).stopbits = s.stopbits := rfl
@[simp] theorem failFlush_slave (e : Status) (c : Byte) : (failFlush e c s).slave = s.slave := rfl
@[simp] theorem failFlush_tSettle (e : Status) (c : Byte) : (failFlush e c s).tSettle = s.tSettle := rfl
@[simp] theorem failFlush_tResp (e : Status) (c : Byte) : (failFlush e c s).tResp = s.tResp := rfl
@[simp] theorem failFlush_tDrain (e : Status) (c : Byte) : (failFlush e c s).tDrain = s.tDrain := rfl
@[simp] theorem failFlush_op (e : Status) (c : Byte) : (failFlush e c s).op = s.op := rfl
@[simp] theorem failFlush_expFc (e : Status) (c : Byte) : (failFlush e c s).expFc = s.expFc := rfl
@[simp] theorem failFlush_reqCount (e : Status) (c : Byte) : (failFlush e c s).reqCount = s.reqCount := rfl
@[simp] theorem failFlush_err (e : Status) (c : Byte) : (failFlush e c s).err = e.code := rfl
@[simp] theorem failFlush_exc (e : Status) (c : Byte) : (failFlush e c s).exc = c := rfl
@[simp] theorem failFlush_crc (e : Status) (c : Byte) : (failFlush e c s).crc = s.crc := rfl
@[simp] theorem failFlush_txbuf (e : Status) (c : Byte) : (failFlush e c s).txbuf = s.txbuf := rfl
@[simp] theorem failFlush_txLen (e : Status) (c : Byte) : (failFlush e c s).txLen = s.txLen := rfl
@[simp] theorem failFlush_rxbuf (e : Status) (c : Byte) : (failFlush e c s).rxbuf = s.rxbuf := rfl
@[simp] theorem failFlush_rxLen (e : Status) (c : Byte) : (failFlush e c s).rxLen = s.rxLen := rfl
@[simp] theorem failFlush_rem (e : Status) (c : Byte) : (failFlush e c s).rem = s.rem := rfl
@[simp] theorem failFlush_vbuf (e : Status) (c : Byte) : (failFlush e c s).vbuf = s.vbuf := rfl
@[simp] theorem failFlush_vLen (e : Status) (c : Byte) : (failFlush e c s).vLen = s.vLen := rfl
@[simp] theorem failFlush_cmd (e : Status) (c : Byte) : (failFlush e c s).cmd = s.cmd := rfl
@[simp] theorem failFlush_plWait (e : Status) (c : Byte) : (failFlush e c s).plWait = s.plWait := rfl
@[simp] theorem failFlush_plTaken (e : Status) (c : Byte) : (failFlush e c s).plTaken = s.plTaken := rfl
@[simp] theorem failFlush_plGood (e : Status) (c : Byte) : (failFlush e c s).plGood = s.plGood := rfl
@[simp] theorem failFlush_callWait (e : Status) (c : Byte) : (failFlush e c s).callWait = true := rfl
@[simp] theorem failFlush_rspOut (e : Status) (c : Byte) : (failFlush e c s).rspOut = s.rspOut := rfl
@[simp] theorem failFlush_rvOut (e : Status) (c : Byte) : (failFlush e c s).rvOut = s.rvOut := rfl
@[simp] theorem failFlush_cmdIn (e : Status) (c : Byte) : (failFlush e c s).cmdIn = s.cmdIn := rfl
@[simp] theorem failFlush_payload (e : Status) (c : Byte) : (failFlush e c s).payload = s.payload := rfl
@[simp] theorem failFlush_rspReady (e : Status) (c : Byte) : (failFlush e c s).rspReady = s.rspReady := rfl
@[simp] theorem failFlush_rvReady (e : Status) (c : Byte) : (failFlush e c s).rvReady = s.rvReady := rfl
@[simp] theorem failFlush_tReady (e : Status) (c : Byte) : (failFlush e c s).tReady = s.tReady := rfl
@[simp] theorem failFlush_twReady (e : Status) (c : Byte) : (failFlush e c s).twReady = s.twReady := rfl
@[simp] theorem failFlush_answers (e : Status) (c : Byte) : (failFlush e c s).answers = s.answers := rfl
@[simp] theorem failFlush_ticks (e : Status) (c : Byte) : (failFlush e c s).ticks = s.ticks := rfl
@[simp] theorem failFlush_rst (e : Status) (c : Byte) : (failFlush e c s).rst = s.rst := rfl
@[simp] theorem failFlush_trace (e : Status) (c : Byte) : (failFlush e c s).trace = s.trace := rfl

/-! ## `closePort` -/

@[simp] theorem closePort_st : (closePort s).st = .sClosing := rfl
@[simp] theorem closePort_connOpen : (closePort s).connOpen = s.connOpen := rfl
@[simp] theorem closePort_handle : (closePort s).handle = s.handle := rfl
@[simp] theorem closePort_baud : (closePort s).baud = s.baud := rfl
@[simp] theorem closePort_databits : (closePort s).databits = s.databits := rfl
@[simp] theorem closePort_parity : (closePort s).parity = s.parity := rfl
@[simp] theorem closePort_stopbits : (closePort s).stopbits = s.stopbits := rfl
@[simp] theorem closePort_slave : (closePort s).slave = s.slave := rfl
@[simp] theorem closePort_tSettle : (closePort s).tSettle = s.tSettle := rfl
@[simp] theorem closePort_tResp : (closePort s).tResp = s.tResp := rfl
@[simp] theorem closePort_tDrain : (closePort s).tDrain = s.tDrain := rfl
@[simp] theorem closePort_op : (closePort s).op = s.op := rfl
@[simp] theorem closePort_expFc : (closePort s).expFc = s.expFc := rfl
@[simp] theorem closePort_reqCount : (closePort s).reqCount = s.reqCount := rfl
@[simp] theorem closePort_err : (closePort s).err = s.err := rfl
@[simp] theorem closePort_exc : (closePort s).exc = s.exc := rfl
@[simp] theorem closePort_crc : (closePort s).crc = s.crc := rfl
@[simp] theorem closePort_txbuf : (closePort s).txbuf = s.txbuf := rfl
@[simp] theorem closePort_txLen : (closePort s).txLen = s.txLen := rfl
@[simp] theorem closePort_rxbuf : (closePort s).rxbuf = s.rxbuf := rfl
@[simp] theorem closePort_rxLen : (closePort s).rxLen = s.rxLen := rfl
@[simp] theorem closePort_rem : (closePort s).rem = s.rem := rfl
@[simp] theorem closePort_vbuf : (closePort s).vbuf = s.vbuf := rfl
@[simp] theorem closePort_vLen : (closePort s).vLen = s.vLen := rfl
@[simp] theorem closePort_cmd : (closePort s).cmd = s.cmd := rfl
@[simp] theorem closePort_plWait : (closePort s).plWait = s.plWait := rfl
@[simp] theorem closePort_plTaken : (closePort s).plTaken = s.plTaken := rfl
@[simp] theorem closePort_plGood : (closePort s).plGood = s.plGood := rfl
@[simp] theorem closePort_callWait : (closePort s).callWait = true := rfl
@[simp] theorem closePort_rspOut : (closePort s).rspOut = s.rspOut := rfl
@[simp] theorem closePort_rvOut : (closePort s).rvOut = s.rvOut := rfl
@[simp] theorem closePort_cmdIn : (closePort s).cmdIn = s.cmdIn := rfl
@[simp] theorem closePort_payload : (closePort s).payload = s.payload := rfl
@[simp] theorem closePort_rspReady : (closePort s).rspReady = s.rspReady := rfl
@[simp] theorem closePort_rvReady : (closePort s).rvReady = s.rvReady := rfl
@[simp] theorem closePort_tReady : (closePort s).tReady = s.tReady := rfl
@[simp] theorem closePort_twReady : (closePort s).twReady = s.twReady := rfl
@[simp] theorem closePort_answers : (closePort s).answers = s.answers := rfl
@[simp] theorem closePort_ticks : (closePort s).ticks = s.ticks := rfl
@[simp] theorem closePort_rst : (closePort s).rst = s.rst := rfl
@[simp] theorem closePort_trace : (closePort s).trace = s.trace := rfl

/-! ## `enterOpen` -/

@[simp] theorem enterOpen_st : (enterOpen s).st = .sOpen := rfl
@[simp] theorem enterOpen_connOpen : (enterOpen s).connOpen = s.connOpen := rfl
@[simp] theorem enterOpen_handle : (enterOpen s).handle = s.handle := rfl
@[simp] theorem enterOpen_baud : (enterOpen s).baud = s.baud := rfl
@[simp] theorem enterOpen_databits : (enterOpen s).databits = s.databits := rfl
@[simp] theorem enterOpen_parity : (enterOpen s).parity = s.parity := rfl
@[simp] theorem enterOpen_stopbits : (enterOpen s).stopbits = s.stopbits := rfl
@[simp] theorem enterOpen_slave : (enterOpen s).slave = s.slave := rfl
@[simp] theorem enterOpen_tSettle : (enterOpen s).tSettle = s.tSettle := rfl
@[simp] theorem enterOpen_tResp : (enterOpen s).tResp = s.tResp := rfl
@[simp] theorem enterOpen_tDrain : (enterOpen s).tDrain = s.tDrain := rfl
@[simp] theorem enterOpen_op : (enterOpen s).op = s.op := rfl
@[simp] theorem enterOpen_expFc : (enterOpen s).expFc = s.expFc := rfl
@[simp] theorem enterOpen_reqCount : (enterOpen s).reqCount = s.reqCount := rfl
@[simp] theorem enterOpen_err : (enterOpen s).err = s.err := rfl
@[simp] theorem enterOpen_exc : (enterOpen s).exc = s.exc := rfl
@[simp] theorem enterOpen_crc : (enterOpen s).crc = s.crc := rfl
@[simp] theorem enterOpen_txbuf : (enterOpen s).txbuf = s.txbuf := rfl
@[simp] theorem enterOpen_txLen : (enterOpen s).txLen = s.txLen := rfl
@[simp] theorem enterOpen_rxbuf : (enterOpen s).rxbuf = s.rxbuf := rfl
@[simp] theorem enterOpen_rxLen : (enterOpen s).rxLen = s.rxLen := rfl
@[simp] theorem enterOpen_rem : (enterOpen s).rem = s.rem := rfl
@[simp] theorem enterOpen_vbuf : (enterOpen s).vbuf = s.vbuf := rfl
@[simp] theorem enterOpen_vLen : (enterOpen s).vLen = s.vLen := rfl
@[simp] theorem enterOpen_cmd : (enterOpen s).cmd = s.cmd := rfl
@[simp] theorem enterOpen_plWait : (enterOpen s).plWait = s.plWait := rfl
@[simp] theorem enterOpen_plTaken : (enterOpen s).plTaken = s.plTaken := rfl
@[simp] theorem enterOpen_plGood : (enterOpen s).plGood = s.plGood := rfl
@[simp] theorem enterOpen_callWait : (enterOpen s).callWait = true := rfl
@[simp] theorem enterOpen_rspOut : (enterOpen s).rspOut = s.rspOut := rfl
@[simp] theorem enterOpen_rvOut : (enterOpen s).rvOut = s.rvOut := rfl
@[simp] theorem enterOpen_cmdIn : (enterOpen s).cmdIn = s.cmdIn := rfl
@[simp] theorem enterOpen_payload : (enterOpen s).payload = s.payload := rfl
@[simp] theorem enterOpen_rspReady : (enterOpen s).rspReady = s.rspReady := rfl
@[simp] theorem enterOpen_rvReady : (enterOpen s).rvReady = s.rvReady := rfl
@[simp] theorem enterOpen_tReady : (enterOpen s).tReady = s.tReady := rfl
@[simp] theorem enterOpen_twReady : (enterOpen s).twReady = s.twReady := rfl
@[simp] theorem enterOpen_answers : (enterOpen s).answers = s.answers := rfl
@[simp] theorem enterOpen_ticks : (enterOpen s).ticks = s.ticks := rfl
@[simp] theorem enterOpen_rst : (enterOpen s).rst = s.rst := rfl
@[simp] theorem enterOpen_trace : (enterOpen s).trace = s.trace := rfl

/-! ## `consumeRecord` -/

@[simp] theorem consumeRecord_st : (consumeRecord s).st = s.st := rfl
@[simp] theorem consumeRecord_connOpen : (consumeRecord s).connOpen = s.connOpen := rfl
@[simp] theorem consumeRecord_handle : (consumeRecord s).handle = s.handle := rfl
@[simp] theorem consumeRecord_baud : (consumeRecord s).baud = s.baud := rfl
@[simp] theorem consumeRecord_databits : (consumeRecord s).databits = s.databits := rfl
@[simp] theorem consumeRecord_parity : (consumeRecord s).parity = s.parity := rfl
@[simp] theorem consumeRecord_stopbits : (consumeRecord s).stopbits = s.stopbits := rfl
@[simp] theorem consumeRecord_slave : (consumeRecord s).slave = s.slave := rfl
@[simp] theorem consumeRecord_tSettle : (consumeRecord s).tSettle = s.tSettle := rfl
@[simp] theorem consumeRecord_tResp : (consumeRecord s).tResp = s.tResp := rfl
@[simp] theorem consumeRecord_tDrain : (consumeRecord s).tDrain = s.tDrain := rfl
@[simp] theorem consumeRecord_op : (consumeRecord s).op = s.op := rfl
@[simp] theorem consumeRecord_expFc : (consumeRecord s).expFc = s.expFc := rfl
@[simp] theorem consumeRecord_reqCount : (consumeRecord s).reqCount = s.reqCount := rfl
@[simp] theorem consumeRecord_err : (consumeRecord s).err = s.err := rfl
@[simp] theorem consumeRecord_exc : (consumeRecord s).exc = s.exc := rfl
@[simp] theorem consumeRecord_crc : (consumeRecord s).crc = s.crc := rfl
@[simp] theorem consumeRecord_txbuf : (consumeRecord s).txbuf = s.txbuf := rfl
@[simp] theorem consumeRecord_txLen : (consumeRecord s).txLen = s.txLen := rfl
@[simp] theorem consumeRecord_rxbuf : (consumeRecord s).rxbuf = s.rxbuf := rfl
@[simp] theorem consumeRecord_rxLen : (consumeRecord s).rxLen = s.rxLen := rfl
@[simp] theorem consumeRecord_rem : (consumeRecord s).rem = s.rem := rfl
@[simp] theorem consumeRecord_vbuf : (consumeRecord s).vbuf = s.vbuf := rfl
@[simp] theorem consumeRecord_vLen : (consumeRecord s).vLen = s.vLen := rfl
@[simp] theorem consumeRecord_cmd : (consumeRecord s).cmd = s.cmd := rfl
@[simp] theorem consumeRecord_plWait : (consumeRecord s).plWait = s.plWait := rfl
@[simp] theorem consumeRecord_plTaken : (consumeRecord s).plTaken = s.plTaken := rfl
@[simp] theorem consumeRecord_plGood : (consumeRecord s).plGood = s.plGood := rfl
@[simp] theorem consumeRecord_callWait : (consumeRecord s).callWait = s.callWait := rfl
@[simp] theorem consumeRecord_rspOut : (consumeRecord s).rspOut = s.rspOut := rfl
@[simp] theorem consumeRecord_rvOut : (consumeRecord s).rvOut = s.rvOut := rfl
@[simp] theorem consumeRecord_cmdIn : (consumeRecord s).cmdIn = s.cmdIn.drop 1 := rfl
@[simp] theorem consumeRecord_payload : (consumeRecord s).payload = s.payload := rfl
@[simp] theorem consumeRecord_rspReady : (consumeRecord s).rspReady = s.rspReady := rfl
@[simp] theorem consumeRecord_rvReady : (consumeRecord s).rvReady = s.rvReady := rfl
@[simp] theorem consumeRecord_tReady : (consumeRecord s).tReady = s.tReady := rfl
@[simp] theorem consumeRecord_twReady : (consumeRecord s).twReady = s.twReady := rfl
@[simp] theorem consumeRecord_answers : (consumeRecord s).answers = s.answers := rfl
@[simp] theorem consumeRecord_ticks : (consumeRecord s).ticks = s.ticks := rfl
@[simp] theorem consumeRecord_rst : (consumeRecord s).rst = s.rst := rfl
@[simp] theorem consumeRecord_trace : (consumeRecord s).trace = s.trace := rfl

@[simp] theorem log_tx (e : Event) : (log e s).tx = s.tx := rfl
@[simp] theorem log_rx (e : Event) : (log e s).rx = s.rx := rfl
@[simp] theorem log_values (e : Event) : (log e s).values = s.values := rfl
@[simp] theorem issue_tx (c : Call) : (issue c s).tx = s.tx := rfl
@[simp] theorem issue_rx (c : Call) : (issue c s).rx = s.rx := rfl
@[simp] theorem issue_values (c : Call) : (issue c s).values = s.values := rfl
@[simp] theorem awaitPayload_tx : (awaitPayload s).tx = s.tx := rfl
@[simp] theorem awaitPayload_rx : (awaitPayload s).rx = s.rx := rfl
@[simp] theorem awaitPayload_values : (awaitPayload s).values = s.values := rfl
@[simp] theorem closePort_tx : (closePort s).tx = s.tx := rfl
@[simp] theorem closePort_rx : (closePort s).rx = s.rx := rfl
@[simp] theorem closePort_values : (closePort s).values = s.values := rfl
@[simp] theorem enterOpen_tx : (enterOpen s).tx = s.tx := rfl
@[simp] theorem enterOpen_rx : (enterOpen s).rx = s.rx := rfl
@[simp] theorem enterOpen_values : (enterOpen s).values = s.values := rfl
@[simp] theorem deliver_tx (r : Response) : (deliver r s).tx = s.tx := rfl
@[simp] theorem deliver_rx (r : Response) : (deliver r s).rx = s.rx := rfl
@[simp] theorem deliver_values (r : Response) : (deliver r s).values = s.values := rfl
@[simp] theorem takeBeat_tx (i : Instr) (beat : Word) (rest : List Word) : (takeBeat i beat rest s).tx = s.tx := rfl
@[simp] theorem takeBeat_rx (i : Instr) (beat : Word) (rest : List Word) : (takeBeat i beat rest s).rx = s.rx := rfl
@[simp] theorem deliverValue_tx (v : Half) (rest : List Half) : (deliverValue v rest s).tx = s.tx := rfl
@[simp] theorem deliverValue_rx (v : Half) (rest : List Half) : (deliverValue v rest s).rx = s.rx := rfl

/-- What `awaitBytes` is: the CRC command's first value of `CRC`, then the wait for its beats. -/
theorem awaitBytes_eq (i : Instr) : awaitBytes i s = awaitPayload { s with crc := initialCrc i s.crc } := rfl

/-- A failure after the write of an exchange (60 R277 a). -/
theorem raise_inExchange {s : State} (e : Status) (c : Byte) (h : s.st.inExchange = true) :
    raise e c s = failFlush e c s := by
  simp [raise, h]

/-- Any other failure (60 R277 b). -/
theorem raise_outside {s : State} (e : Status) (c : Byte) (h : s.st.inExchange = false) :
    raise e c s = respond e.code c 0 [] s := by
  simp [raise, h]

end Sys2Proof.Machine
end

