-- ==== Sys2Proof/Laws/Ops.lean ====
section
/-! SUPPORT. Laws/Ops.lean: one spec lemma per shared operation: everything it can do when the engine moves. -/

namespace Sys2Proof.Machine

/-- A composed transition moves only if both parts do. -/
theorem andThen_moved {p : Progress} {f : State → Progress} {t : State}
    (h : p.andThen f = .moved t) : ∃ s, p = .moved s ∧ f s = .moved t := by
  cases p <;> simp_all [Progress.andThen]

@[simp] theorem moved_andThen (s : State) (f : State → Progress) : (Progress.moved s).andThen f = f s := rfl

/-- Taking an answer moves only if one is there. -/
theorem takeAnswer_moved {f : Answer → State → Progress} {s t : State}
    (h : takeAnswer f s = .moved t) :
    ∃ a rest, s.answers = a :: rest ∧ f a { s with answers := rest } = .moved t := by
  unfold takeAnswer at h
  split at h
  · cases h
  · exact ⟨_, _, ‹_›, h⟩

theorem takeAnswer_cons {f : Answer → State → Progress} {s : State} {a : Answer} {rest : List Answer}
    (h : s.answers = a :: rest) : takeAnswer f s = f a { s with answers := rest } := by
  simp [takeAnswer, h]

theorem takeAnswer_nil {f : Answer → State → Progress} {s : State} (h : s.answers = []) :
    takeAnswer f s = .blocked := by
  simp [takeAnswer, h]

/-- A payload transfer that moves takes one beat, or goes on with all of them (30 R92). -/
theorem takePayload_moved {i : Instr} {n : Nat} {f : Bool → State → Progress} {s t : State}
    (h : takePayload i n f s = .moved t) :
    (s.plTaken < n ∧ ∃ beat rest, s.payload = beat :: rest ∧ t = takeBeat i beat rest s) ∨
    (n ≤ s.plTaken ∧ f s.plGood { s with plWait := false, plTaken := 0, plGood := true } = .moved t) := by
  unfold takePayload at h
  split at h
  · split at h
    · cases h
    · exact .inl ⟨‹_›, _, _, ‹_›, by simpa using h.symm⟩
  · exact .inr ⟨by omega, h⟩

/-- What a beat stores: a value of `WRITE_HOLDING` that passed, at its own index, or nothing (10 R38). -/
theorem beatStore_cases (i : Instr) (k : Nat) (beat : Word) (good : Bool) (m : Memory 16) :
    beatStore i k beat good m = m ∨
    ∃ slave start n, i = .writeHolding slave start n ∧ n ≤ Config.maxWriteCount ∧ good = true ∧
      beatInRange beat = true ∧ beatStore i k beat good m = m.write k (beatValue beat) := by
  cases i <;> simp only [beatStore, true_or]
  split
  · exact .inr ⟨_, _, _, rfl, ‹_ ∧ _ ∧ _›.1, ‹_ ∧ _ ∧ _›.2.1, ‹_ ∧ _ ∧ _›.2.2, rfl⟩
  · exact .inl rfl

/-- With a beat offered and one still to take, it is taken. -/
theorem takePayload_beat {i : Instr} {n : Nat} {f : Bool → State → Progress} {s : State} {beat : Word}
    {rest : List Word} (hn : s.plTaken < n) (hp : s.payload = beat :: rest) :
    takePayload i n f s = .moved (takeBeat i beat rest s) := by
  simp [takePayload, hn, hp]

/-- With all beats taken the command goes on. -/
theorem takePayload_done {i : Instr} {n : Nat} {f : Bool → State → Progress} {s : State}
    (hn : n ≤ s.plTaken) :
    takePayload i n f s = f s.plGood { s with plWait := false, plTaken := 0, plGood := true } := by
  rw [takePayload, if_neg (by omega)]

/-- With no beat offered and one still to take, the engine waits. -/
theorem takePayload_waits {i : Instr} {n : Nat} {f : Bool → State → Progress} {s : State}
    (hn : s.plTaken < n) (hp : s.payload = []) : takePayload i n f s = .blocked := by
  simp [takePayload, hn, hp]

/-- A read answer is used only if it keeps the contract (20_memory.md R67). -/
theorem checkedRead_moved {m : Nat} {a : Answer} {p : Progress} {t : State}
    (h : checkedRead m a p = .moved t) :
    p = .moved t ∧ a.bytes.length = a.n.toNat ∧ a.bytes.length ≤ m := by
  unfold checkedRead at h
  split at h
  · cases h
  · split at h
    · cases h
    · exact ⟨h, by omega, by omega⟩

theorem checkedRead_ok {m : Nat} {a : Answer} (p : Progress) (h : a.bytes.length = a.n.toNat)
    (hm : a.bytes.length ≤ m) : checkedRead m a p = p := by
  unfold checkedRead
  rw [if_neg (by omega), if_neg (by omega)]

/-- What appending received bytes does. -/
theorem appendRx_moved {bytes : List Byte} {s t : State} (h : appendRx bytes s = .moved t) :
    s.rxLen.toNat + bytes.length ≤ Config.maxFrame ∧
    t = { s with rxbuf := s.rxbuf.writeFrom s.rxLen.toNat bytes,
                 rxLen := BitVec.ofNat 9 (s.rxLen.toNat + bytes.length) } := by
  unfold appendRx at h
  split at h
  · exact ⟨‹_›, by simpa using h.symm⟩
  · cases h

/-- What loading values does. -/
theorem loadValues_moved {vs : List Half} {s t : State} (h : loadValues vs s = .moved t) :
    vs.length ≤ Config.maxReadCount ∧
    t = { s with vbuf := s.vbuf.writeFrom 0 vs, vLen := BitVec.ofNat 8 vs.length } := by
  unfold loadValues at h
  split at h
  · exact ⟨‹_›, by simpa using h.symm⟩
  · cases h

/-- What loading a request does. -/
theorem loadRequest_moved {frame : List Byte} {s t : State} (h : loadRequest frame s = .moved t) :
    frame.length ≤ Config.maxFrame ∧
    t = { s with txbuf := s.txbuf.writeFrom 0 frame, txLen := BitVec.ofNat 9 frame.length,
                 crc := crc16 (crcBody frame) } := by
  unfold loadRequest at h
  split at h
  · exact ⟨‹_›, by simpa using h.symm⟩
  · cases h

/-- After appending, the receive buffer reads the old bytes and then the new ones. -/
theorem appendRx_rx {bytes : List Byte} {s t : State} (hm : s.rxbuf.wf)
    (h : appendRx bytes s = .moved t) : t.rx = s.rx ++ bytes := by
  obtain ⟨hl, rfl⟩ := appendRx_moved h
  have hlt : s.rxLen.toNat + bytes.length < 2 ^ 9 := by
    have : Config.maxFrame = 256 := rfl
    omega
  simp only [State.rx, BitVec.toNat_ofNat, Nat.mod_eq_of_lt hlt]
  exact Memory.readFrom_writeFrom_append _ _ _ hm

/-- After loading values, `VBUF[0..V_LEN)` is those values. -/
theorem loadValues_values {vs : List Half} {s t : State} (hm : s.vbuf.wf)
    (h : loadValues vs s = .moved t) : t.values = vs := by
  obtain ⟨hl, rfl⟩ := loadValues_moved h
  have hlt : vs.length < 2 ^ 8 := by
    have : Config.maxReadCount = 125 := rfl
    omega
  simp only [State.values, BitVec.toNat_ofNat, Nat.mod_eq_of_lt hlt]
  exact Memory.readFrom_writeFrom _ _ _ hm

/-- After loading a request, `TXBUF[0..TX_LEN)` is that frame. -/
theorem loadRequest_tx {frame : List Byte} {s t : State} (hm : s.txbuf.wf)
    (h : loadRequest frame s = .moved t) : t.tx = frame := by
  obtain ⟨hl, rfl⟩ := loadRequest_moved h
  have hlt : frame.length < 2 ^ 9 := by
    have : Config.maxFrame = 256 := rfl
    omega
  simp only [State.tx, BitVec.toNat_ofNat, Nat.mod_eq_of_lt hlt]
  exact Memory.readFrom_writeFrom _ _ _ hm

end Sys2Proof.Machine
end

