-- ==== Sys2Proof/Laws/Engine.lean ====
section
/-! SUPPORT. Laws/Engine.lean: what a transition, the acceptance of a command and a step can do, and the induction
over a run packaged once. -/

namespace Sys2Proof.Machine

/-- A transition that moves delivers the record, delivers a value beat, goes on with a payload, issues a call, or is
the session state's event; `rst` is low. -/
theorem transition_moved {s t : State} (h : transition s = .moved t) :
    s.rst = false ∧
    ((∃ r, s.rspOut = some r ∧ s.rspReady = true ∧ t = deliver r s) ∨
      (∃ v rest, s.rspOut = none ∧ s.rvOut = v :: rest ∧ s.rvReady = true ∧ t = deliverValue v rest s) ∨
      (s.rspOut = none ∧ s.rvOut = [] ∧ s.plWait = true ∧ payloadStep s = .moved t) ∨
      (s.rspOut = none ∧ s.rvOut = [] ∧ s.plWait = false ∧ s.callWait = true ∧ callStep s = .moved t) ∨
      (s.rspOut = none ∧ s.rvOut = [] ∧ s.plWait = false ∧ s.callWait = false ∧
        sessionStep s = .moved t)) := by
  unfold transition at h
  split at h
  · cases h
  · rename_i hr
    refine ⟨by simpa using hr, ?_⟩
    split at h
    · split at h
      · exact .inl ⟨_, ‹_›, ‹_›, by simpa using h.symm⟩
      · cases h
    · split at h
      · exact .inr (.inl ⟨_, _, ‹_›, ‹_›, ‹_›, by simpa using h.symm⟩)
      · cases h
    · unfold workStep at h
      split at h
      · exact .inr (.inr (.inl ⟨‹_›, ‹_›, ‹_›, h⟩))
      · rename_i hp
        split at h
        · exact .inr (.inr (.inr (.inl ⟨‹_›, ‹_›, by simpa using hp, ‹_›, h⟩)))
        · rename_i hc
          exact .inr (.inr (.inr (.inr ⟨‹_›, ‹_›, by simpa using hp, by simpa using hc, h⟩)))

/-- With nothing to deliver and `rst` low, a transition is the engine's own work. -/
theorem transition_quiet {s : State} (hr : s.rst = false) (ho : s.rspOut = none) (hv : s.rvOut = []) :
    transition s = workStep s := by
  simp [transition, hr, ho, hv]

/-- An offered record is delivered when the host takes it (30 R95). -/
theorem transition_deliver {s : State} {r : Response} (hr : s.rst = false) (ho : s.rspOut = some r)
    (hh : s.rspReady = true) : transition s = .moved (deliver r s) := by
  simp [transition, hr, ho, hh]

/-- A value beat is delivered when the host takes it (30 R96). -/
theorem transition_deliverValue {s : State} {v : Half} {rest : List Half} (hr : s.rst = false)
    (ho : s.rspOut = none) (hv : s.rvOut = v :: rest) (hh : s.rvReady = true) :
    transition s = .moved (deliverValue v rest s) := by
  simp [transition, hr, ho, hv, hh]

/-- While `rst` is 1 nothing moves (70 R300). -/
theorem transition_rst {s : State} (hr : s.rst = true) : transition s = .blocked := by
  simp [transition, hr]

/-- A payload transfer that moves belongs to one of the four commands that have a payload (30 R92). -/
theorem payloadStep_moved {s t : State} (h : payloadStep s = .moved t) :
    ∃ i n, s.cmd = some i ∧ i.count? = some n ∧
      ((∃ slave start, i = .writeHolding slave start n ∧
          takePayload i n (writeRequest slave start n) s = .moved t) ∨
        (∃ baud databits parity stopbits, i = .connect n baud databits parity stopbits ∧
          forwardStep n s = .moved t) ∨
        (i = .crc16 n ∧ takePayload i n crcAnswer s = .moved t) ∨
        (i = .crcCheck n ∧ takePayload i n (crcCheckAnswer n) s = .moved t)) := by
  unfold payloadStep at h
  split at h <;> first | cases h | skip
  · exact ⟨_, _, ‹_›, rfl, .inl ⟨_, _, rfl, h⟩⟩
  · exact ⟨_, _, ‹_›, rfl, .inr (.inl ⟨_, _, _, _, rfl, h⟩)⟩
  · exact ⟨_, _, ‹_›, rfl, .inr (.inr (.inl ⟨rfl, h⟩))⟩
  · exact ⟨_, _, ‹_›, rfl, .inr (.inr (.inr ⟨rfl, h⟩))⟩

/-- A call that is issued is the one of the state `ST` is in, and the transport takes it (30 R98). -/
theorem callStep_moved {s t : State} (h : callStep s = .moved t) :
    s.tReady = true ∧ ∃ c, s.portCall = some c ∧ t = issue c s := by
  unfold callStep at h
  split at h
  · split at h
    · exact ⟨‹_›, _, ‹_›, by simpa using h.symm⟩
    · cases h
  · cases h

/-- A session event that moves, by the state it happens in (42 R180). -/
theorem sessionStep_moved {s t : State} (h : sessionStep s = .moved t) :
    (s.st = .sClosing ∧ takeAnswer closeAnswer s = .moved t) ∨
    (s.st = .sOpen ∧ takeAnswer openAnswer s = .moved t) ∨
    (s.st = .sDrain ∧ takeAnswer drainAnswer s = .moved t) ∨
    (s.st = .sSettle ∧ settleStep s = .moved t) ∨
    (s.st = .sSyncFlush ∧ takeAnswer syncFlushAnswer s = .moved t) ∨
    (s.st = .sTx ∧ takeAnswer writeAnswer s = .moved t) ∨
    (s.st = .sRx ∧ takeAnswer readAnswer s = .moved t) ∨
    (s.st = .sCheck ∧ checkStep s = .moved t) ∨
    (s.st = .sErrFlush ∧ takeAnswer failReturn s = .moved t) := by
  unfold sessionStep at h
  split at h <;> simp_all

/-! ## Runs of the machine -/

theorem run_zero (s : State) : Host.Core.run Sys2Proof.core 0 s = .next s := rfl

theorem StepsTo.refl (s : State) : StepsTo s s := ⟨0, run_zero s⟩

/-- One more step of a run. -/
theorem run_succ (n : Nat) (s : State) :
    Host.Core.run Sys2Proof.core (n + 1) s = match step s with
      | .next t => Host.Core.run Sys2Proof.core n t
      | .fault r => .fault r
      | .refused r => .refused r := by
  have h : Sys2Proof.core.step s = step s := rfl
  have hrun := Host.Core.run.eq_2 Sys2Proof.core s n
  rw [hrun, h]
  cases step s <;> rfl

theorem run_step {n : Nat} {s u : State} (h : step s = .next u) :
    Host.Core.run Sys2Proof.core (n + 1) s = Host.Core.run Sys2Proof.core n u := by
  rw [run_succ, h]

/-- One step, and then more. -/
theorem StepsTo.head {s u t : State} (h : step s = .next u) (ht : StepsTo u t) : StepsTo s t := by
  obtain ⟨n, hn⟩ := ht
  exact ⟨n + 1, by rw [run_step h, hn]⟩

/-- The first step of a run that answers a next state. -/
theorem run_succ_next {n : Nat} {s t : State} (h : Host.Core.run Sys2Proof.core (n + 1) s = .next t) :
    ∃ u, step s = .next u ∧ Host.Core.run Sys2Proof.core n u = .next t := by
  rw [run_succ] at h
  split at h
  · exact ⟨_, ‹_›, h⟩
  · cases h
  · cases h

theorem StepsTo.trans {s u t : State} (h : StepsTo s u) (ht : StepsTo u t) : StepsTo s t := by
  obtain ⟨n, hn⟩ := h
  induction n generalizing s with
  | zero => cases hn; exact ht
  | succ n ih =>
    obtain ⟨v, hv, hn⟩ := run_succ_next hn
    exact .head hv (ih hn)

/-- What every step keeps, a run keeps. -/
theorem run_keeps {P : State → Prop} (hP : ∀ s t, P s → step s = .next t → P t) {n : Nat} {s t : State}
    (hs : P s) (h : Host.Core.run Sys2Proof.core n s = .next t) : P t := by
  induction n generalizing s with
  | zero => cases h; exact hs
  | succ n ih =>
    obtain ⟨u, hu, h⟩ := run_succ_next h
    exact ih (hP _ _ hs hu) h

/-! ## Acceptance -/

/-- What each command does first, once accepted. -/
def Instr.first : Instr → State → Progress
  | .readHolding slave start count => readRequest .holding slave start count
  | .readInput slave start count => readRequest .input slave start count
  | .writeHolding _ _ _ => fun s => .moved (awaitPayload s)
  | .connect _ _ _ _ _ => fun s => .moved (if s.connOpen then closePort s else enterOpen s)
  | .disconnect => fun s =>
    .moved (if s.connOpen then closePort s else respond Status.ok.code 0 1 [] s)
  | .setTiming settle resp drain => fun s => .moved (respond Status.ok.code 0 0 []
      { s with tSettle := settle, tResp := resp, tDrain := drain })
  | .crc16 n => fun s => .moved (awaitBytes (.crc16 n) s)
  | .crcCheck n => fun s => .moved (awaitBytes (.crcCheck n) s)

/-- Every meaning is its first act, then a run (42 R181). -/
theorem exec_eq (i : Instr) (s : State) : exec i s = command i (Instr.first i) s := by
  cases i <;> rfl

theorem exec_ready {i : Instr} {s : State} (h : s.cmdReady = true) :
    exec i s = (Instr.first i (accept i s)).outcome s := by
  rw [exec_eq, command, if_pos h]

/-- A command presented to an engine that is not ready waits (70 R305). -/
theorem exec_not_ready {i : Instr} {s : State} (h : s.cmdReady = false) : exec i s = .next s := by
  rw [exec_eq, command, if_neg (by simp [h])]

/-- Beginning an exchange always moves. -/
theorem beginExchange_ne_blocked (slave : Byte) (s : State) : beginExchange slave s ≠ .blocked := by
  unfold beginExchange
  split <;> simp

/-- The first act of a command never waits: waiting begins with the payload or a call. -/
theorem first_ne_blocked (i : Instr) (s : State) : Instr.first i s ≠ .blocked := by
  have hread : ∀ k slave start n, readRequest k slave start n s ≠ .blocked := by
    intro k slave start n
    unfold readRequest loadRequest
    split
    · simp
    · split
      · exact beginExchange_ne_blocked _ _
      · simp [Progress.andThen]
  cases i with
  | readHolding slave start n => exact hread _ _ _ _
  | readInput slave start n => exact hread _ _ _ _
  | writeHolding slave start n => simp [Instr.first]
  | connect n baud databits parity stopbits => simp [Instr.first]
  | disconnect => simp [Instr.first]
  | setTiming settle resp drain => simp [Instr.first]
  | crc16 n => simp [Instr.first]
  | crcCheck n => simp [Instr.first]

/-- A meaning that answers a next state either waited, or did its first act. -/
theorem exec_next {i : Instr} {s t : State} (h : exec i s = .next t) :
    (s.cmdReady = false ∧ t = s) ∨ (s.cmdReady = true ∧ Instr.first i (accept i s) = .moved t) := by
  cases hr : s.cmdReady with
  | false => rw [exec_not_ready hr] at h; exact .inl ⟨rfl, by cases h; rfl⟩
  | true =>
    rw [exec_ready hr] at h
    have hb := first_ne_blocked i (accept i s)
    cases hf : Instr.first i (accept i s) with
    | moved u => rw [hf] at h; cases h; exact .inr ⟨rfl, rfl⟩
    | blocked => exact absurd hf hb
    | fault e => rw [hf] at h; cases h
    | refused e => rw [hf] at h; cases h

/-- With a command in execution and `rst` low, a step is a transition, or waits. -/
theorem step_busy {s : State} (hr : s.rst = false) (hc : s.cmdReady = false) :
    step s = (transition s).outcome s := by
  rw [step, if_neg (by simp [hr]), if_neg (by simp [hc])]

/-- What a step can do. -/
theorem step_next {s t : State} (h : step s = .next t) :
    (s.rst = true ∧ t = hardReset s) ∨
    (s.rst = false ∧ s.cmdReady = true ∧ s.cmdIn = [] ∧ t = s) ∨
    (s.rst = false ∧ s.cmdReady = true ∧ ∃ r rest i, s.cmdIn = r :: rest ∧ decodeRecord r = .ok i ∧
      Instr.first i (accept i (consumeRecord s)) = .moved t) ∨
    (s.rst = false ∧ s.cmdReady = true ∧ ∃ r rest e, s.cmdIn = r :: rest ∧ decodeRecord r = .error e ∧
      t = raise .illegalCommand 0 (log (.reserved r.op) (consumeRecord s))) ∨
    (s.rst = false ∧ s.cmdReady = false ∧ transition s = .blocked ∧ t = s) ∨
    (s.rst = false ∧ s.cmdReady = false ∧ transition s = .moved t) := by
  unfold step presented at h
  cases hrst : s.rst with
  | true => rw [hrst, if_pos rfl] at h; exact .inl ⟨rfl, by cases h; rfl⟩
  | false =>
    rw [hrst, if_neg (by simp)] at h
    cases hr : s.cmdReady with
    | false =>
      rw [hr, if_neg (by simp)] at h
      cases ht : transition s with
      | moved u => rw [ht] at h; cases h; exact .inr (.inr (.inr (.inr (.inr ⟨rfl, rfl, rfl⟩))))
      | blocked => rw [ht] at h; cases h; exact .inr (.inr (.inr (.inr (.inl ⟨rfl, rfl, rfl, rfl⟩))))
      | fault e => rw [ht] at h; cases h
      | refused e => rw [ht] at h; cases h
    | true =>
      rw [hr, if_pos rfl] at h
      cases hc : s.cmdIn with
      | nil => simp [hc] at h; exact .inr (.inl ⟨rfl, rfl, rfl, by cases h; rfl⟩)
      | cons r rest =>
        simp only [hc, List.head?_cons] at h
        cases hd : decodeRecord r with
        | ok i =>
          rw [hd] at h
          rcases exec_next h with ⟨hn, -⟩ | ⟨-, hf⟩
          · have : (consumeRecord s).cmdReady = s.cmdReady := rfl
            rw [this, hr] at hn
            cases hn
          · exact .inr (.inr (.inl ⟨rfl, rfl, r, rest, i, rfl, hd, hf⟩))
        | error e =>
          rw [hd] at h
          exact .inr (.inr (.inr (.inl ⟨rfl, rfl, r, rest, e, rfl, hd, by cases h; rfl⟩)))

/-- The case analysis of a step packaged once: what a reset, the acceptance of a command with its first act, the
answer to a reserved opcode and every transition keep, a step keeps. -/
theorem step_keeps {P : State → Prop}
    (hT : ∀ s t, P s → transition s = .moved t → P t)
    (hR : ∀ s, P s → P (hardReset s))
    (hF : ∀ s r rest i t, P s → s.cmdReady = true → s.cmdIn = r :: rest → decodeRecord r = .ok i →
      Instr.first i (accept i (consumeRecord s)) = .moved t → P t)
    (hI : ∀ s r rest, P s → s.cmdReady = true → s.cmdIn = r :: rest →
      P (raise .illegalCommand 0 (log (.reserved r.op) (consumeRecord s))))
    {s t : State} (hs : P s) (h : step s = .next t) : P t := by
  rcases step_next h with ⟨-, rfl⟩ | ⟨-, -, -, rfl⟩ | ⟨-, hr, r, rest, i, hc, hd, hf⟩ |
    ⟨-, hr, r, rest, e, hc, -, rfl⟩ | ⟨-, -, -, rfl⟩ | ⟨-, -, ht⟩
  · exact hR _ hs
  · exact hs
  · exact hF _ _ _ _ _ hs hr hc hd hf
  · exact hI _ _ _ hs hr hc
  · exact hs
  · exact hT _ _ hs ht

end Sys2Proof.Machine
end

