-- ==== Sys2Proof/Laws/PerInstr.lean ====
section
/-! SUPPORT. Laws/PerInstr.lean: a statement made per instruction: the record of every command carries the
command's opcode, and that opcode is one of the eight assigned ones (30_encoding.md R93). -/

namespace Sys2Proof.Laws.OpcodeAssigned

/-- The record of `i` begins with an assigned opcode, its own. -/
def Statement (i : Instr) : Prop :=
  (encodeRecord i).op = i.opcode ∧
    i.opcode ∈ [0x03#8, 0x04#8, 0x10#8, 0x80#8, 0x81#8, 0x82#8, 0x90#8, 0x91#8]

theorem readHolding (slave : Byte) (start : Half) (count : Nat) :
    Statement (.readHolding slave start count) := ⟨rfl, by simp [Instr.opcode]⟩

theorem readInput (slave : Byte) (start : Half) (count : Nat) :
    Statement (.readInput slave start count) := ⟨rfl, by simp [Instr.opcode]⟩

theorem writeHolding (slave : Byte) (start : Half) (count : Nat) :
    Statement (.writeHolding slave start count) := ⟨rfl, by simp [Instr.opcode]⟩

theorem connect (count : Nat) (baud : Word) (databits parity stopbits : Byte) :
    Statement (.connect count baud databits parity stopbits) := ⟨rfl, by simp [Instr.opcode]⟩

theorem disconnect : Statement .disconnect := ⟨rfl, by simp [Instr.opcode]⟩

theorem setTiming (settle resp drain : Word) : Statement (.setTiming settle resp drain) :=
  ⟨rfl, by simp [Instr.opcode]⟩

theorem crc16 (count : Nat) : Statement (.crc16 count) := ⟨rfl, by simp [Instr.opcode]⟩

theorem crcCheck (count : Nat) : Statement (.crcCheck count) := ⟨rfl, by simp [Instr.opcode]⟩

end Sys2Proof.Laws.OpcodeAssigned
end

