-- ==== Sys2Proof/Laws/Session.lean ====
section
/-! SUPPORT. Laws/Session.lean: one spec lemma per event of the session machine (42_bus_session.md R180):
everything it can do when the engine moves. -/

namespace Sys2Proof.Machine

/-- The begin of an exchange: the write is due, or `NotConnected`. -/
theorem beginExchange_moved {slave : Byte} {s t : State} (h : beginExchange slave s = .moved t) :
    (s.connOpen = true ∧ t = offerCall { s with slave := slave, st := .sTx }) ∨
    (s.connOpen = false ∧ t = raise .notConnected 0 s) := by
  unfold beginExchange at h
  cases hc : s.connOpen <;> simp [hc] at h
  · exact .inr ⟨rfl, h.symm⟩
  · exact .inl ⟨rfl, h.symm⟩

/-- A read command once accepted: too many registers, or encoded and begun. -/
theorem readRequest_moved {k : ReadKind} {slave : Byte} {start : Half} {n : Nat} {s t : State}
    (h : readRequest k slave start n s = .moved t) :
    (Config.maxReadCount < n ∧ t = raise .tooManyRegisters 0 s) ∨
    (n ≤ Config.maxReadCount ∧ ∃ u,
      loadRequest (encodeRead slave k start (BitVec.ofNat 16 n))
        { s with expFc := k.fc, reqCount := BitVec.ofNat 16 n } = .moved u ∧
      beginExchange slave u = .moved t) := by
  unfold readRequest at h
  split at h
  · exact .inl ⟨‹_›, by simpa using h.symm⟩
  · exact .inr ⟨by omega, andThen_moved h⟩

/-- A write command with its beats taken: a failing test, or encoded and begun. -/
theorem writeRequest_moved {slave : Byte} {start : Half} {n : Nat} {good : Bool} {s t : State}
    (h : writeRequest slave start n good s = .moved t) :
    (Config.maxWriteCount < n ∧ t = raise .tooManyValues 0 s) ∨
    (n ≤ Config.maxWriteCount ∧ good = false ∧ t = raise .invalidRegisterValue 0 s) ∨
    (n ≤ Config.maxWriteCount ∧ good = true ∧ ∃ u,
      loadRequest (encodeWrite slave start (s.vbuf.readFrom 0 n))
        { s with vLen := BitVec.ofNat 8 n, expFc := Config.fcWriteHolding, reqCount := BitVec.ofNat 16 n } =
          .moved u ∧
      beginExchange slave u = .moved t) := by
  unfold writeRequest at h
  split at h
  · exact .inl ⟨‹_›, by simpa using h.symm⟩
  · split at h
    · exact .inr (.inr ⟨by omega, ‹_›, andThen_moved h⟩)
    · rename_i hb
      exact .inr (.inl ⟨by omega, by simpa using hb, by simpa using h.symm⟩)

/-- A byte of the name is forwarded when the host offers it and the transport takes it (42 R182). -/
theorem forwardStep_moved {n : Nat} {s t : State} (h : forwardStep n s = .moved t) :
    s.twReady = true ∧ ∃ beat rest, s.payload = beat :: rest ∧ t = forwardByte n beat rest s := by
  unfold forwardStep at h
  split at h
  · cases h
  · split at h
    · exact ⟨‹_›, _, _, ‹_›, by simpa using h.symm⟩
    · cases h

/-- With a byte offered and taken, it is forwarded. -/
theorem forwardStep_beat {n : Nat} {s : State} {beat : Word} {rest : List Word} (ht : s.twReady = true)
    (hp : s.payload = beat :: rest) : forwardStep n s = .moved (forwardByte n beat rest s) := by
  simp [forwardStep, ht, hp]

/-- With no byte offered, or a transport that does not take it, the engine waits. -/
theorem forwardStep_waits {n : Nat} {s : State} (h : s.payload = [] ∨ s.twReady = false) :
    forwardStep n s = .blocked := by
  unfold forwardStep
  rcases h with h | h
  · simp [h]
  · split
    · rfl
    · simp [h]

/-- The close of a Connection is answered. -/
theorem closeAnswer_moved {a : Answer} {s t : State} (h : closeAnswer a s = .moved t) :
    (s.op = 0x80#8 ∧ t = enterOpen (log (.reply .closed) { s with connOpen := false })) ∨
    (s.op ≠ 0x80#8 ∧ t = respond Status.ok.code 0 1 []
      (log (.reply .closed) { s with connOpen := false, st := .sDisc })) := by
  unfold closeAnswer at h
  split at h
  · exact .inl ⟨‹_›, by simpa using h.symm⟩
  · exact .inr ⟨‹_›, by simpa using h.symm⟩

/-- The open is answered. -/
theorem openAnswer_moved {a : Answer} {s t : State} (h : openAnswer a s = .moved t) :
    (a.ok = true ∧ t = offerCall (latchAttributes s.cmd (log (.reply (.opened a.handle))
      { s with handle := a.handle, connOpen := true, slave := 0, st := .sDrain }))) ∨
    (a.ok = false ∧ t = raise .connectionError 0 (log (.reply .transportError) { s with st := .sDisc })) := by
  unfold openAnswer openReply at h
  cases ha : a.ok <;> simp [ha] at h
  · exact .inr ⟨rfl, h.symm⟩
  · exact .inl ⟨rfl, h.symm⟩

/-- A drain read is answered. -/
theorem drainAnswer_moved {a : Answer} {s t : State} (h : drainAnswer a s = .moved t) :
    a.bytes.length = a.n.toNat ∧ a.bytes.length ≤ 256 ∧
    ((a.bytes = [] ∧ t = log (.reply (.drained [])) { s with st := .sSettle, rem := s.tSettle }) ∨
      (a.bytes ≠ [] ∧ t = offerCall (log (.reply (.drained a.bytes)) s))) := by
  obtain ⟨h, hn, hm⟩ := checkedRead_moved h
  refine ⟨hn, hm, ?_⟩
  split at h
  · rename_i hb
    rw [hb] at h
    exact .inl ⟨hb, by simpa using h.symm⟩
  · exact .inr ⟨‹_›, by simpa using h.symm⟩

/-- The settle wait ends, or counts one tick. -/
theorem settleStep_moved {s t : State} (h : settleStep s = .moved t) :
    (s.rem = 0 ∧ t = offerCall (log (.wait s.tSettle) { s with st := .sSyncFlush })) ∨
    (s.rem ≠ 0 ∧ s.ticks ≠ 0 ∧ t = { s with rem := ticksLeft s.rem 1, ticks := s.ticks - 1 }) := by
  unfold settleStep at h
  split at h
  · exact .inl ⟨‹_›, by simpa using h.symm⟩
  · split at h
    · cases h
    · exact .inr ⟨‹_›, ‹_›, by simpa using h.symm⟩

/-- The write of an exchange is answered. -/
theorem writeAnswer_moved {a : Answer} {s t : State} (h : writeAnswer a s = .moved t) :
    (a.ok = true ∧ a.n = s.txLen ∧ t = offerCall (log (.reply (.written a.n))
      { s with rxLen := 0, rem := s.tResp, st := .sRx })) ∨
    (¬ (a.ok = true ∧ a.n = s.txLen) ∧
      t = raise .transportWriteError 0 (log (.reply (writeReply a)) s)) := by
  unfold writeAnswer at h
  split at h
  · rename_i hc
    refine .inl ⟨hc.1, hc.2, ?_⟩
    rw [writeReply, if_pos hc.1] at h
    simpa using h.symm
  · exact .inr ⟨‹_›, by simpa using h.symm⟩

/-- A response read is answered. -/
theorem readAnswer_moved {a : Answer} {s t : State} (h : readAnswer a s = .moved t) :
    s.rxLen.toNat ≤ 256 ∧ a.bytes.length = a.n.toNat ∧ a.bytes.length ≤ wanted s ∧
    ((a.bytes = [] ∧ t = raise .transportTimeout 0 (log (.reply (.data [] a.dt)) s)) ∨
      (a.bytes ≠ [] ∧ ∃ u, appendRx a.bytes (log (.reply (.data a.bytes a.dt)) s) = .moved u ∧
        t = afterBytes { u with rem := ticksLeft u.rem a.dt })) := by
  unfold readAnswer at h
  split at h
  · cases h
  · rename_i hl
    have hl' : s.rxLen.toNat ≤ 256 := by
      have : Config.maxFrame = 256 := rfl
      omega
    obtain ⟨h, hn, hm⟩ := checkedRead_moved h
    refine ⟨hl', hn, hm, ?_⟩
    split at h
    · rename_i hb
      rw [hb] at h
      exact .inl ⟨hb, by simpa using h.symm⟩
    · obtain ⟨u, hu, h⟩ := andThen_moved h
      exact .inr ⟨‹_›, u, hu, by simpa using h.symm⟩

/-- After bytes are stored: oversize, complete, out of time, or the next read. -/
theorem afterBytes_cases (s : State) :
    (∃ n, flen s.rx = some n ∧ 256 < n ∧ afterBytes s = raise .malformedFrame 0 s) ∨
    (∃ n, flen s.rx = some n ∧ n ≤ 256 ∧ s.rxLen.toNat = n ∧ afterBytes s = { s with st := .sCheck }) ∨
    ((∀ n, flen s.rx = some n → n ≤ 256 ∧ s.rxLen.toNat ≠ n) ∧ s.rem = 0 ∧
      afterBytes s = raise .transportTimeout 0 s) ∨
    ((∀ n, flen s.rx = some n → n ≤ 256 ∧ s.rxLen.toNat ≠ n) ∧ s.rem ≠ 0 ∧
      afterBytes s = offerCall s) := by
  have hmax : Config.maxFrame = 256 := rfl
  unfold afterBytes
  cases hf : flen s.rx with
  | none =>
    by_cases hr : s.rem = 0
    · exact .inr (.inr (.inl ⟨by simp, hr, by simp [hr]⟩))
    · exact .inr (.inr (.inr ⟨by simp, hr, by rw [if_neg hr]⟩))
  | some n =>
    by_cases hn : 256 < n
    · exact .inl ⟨n, rfl, hn, by simp [hmax, hn]⟩
    · by_cases hl : s.rxLen.toNat = n
      · exact .inr (.inl ⟨n, rfl, by omega, hl, by simp [hmax, hn, hl]⟩)
      · have hall : ∀ m, some n = some m → m ≤ 256 ∧ s.rxLen.toNat ≠ m := by
          intro m hm
          cases hm
          exact ⟨by omega, hl⟩
        by_cases hr : s.rem = 0
        · exact .inr (.inr (.inl ⟨hall, hr, by simp [hmax, hn, hl, hr]⟩))
        · exact .inr (.inr (.inr ⟨hall, hr, by simp only [hmax, if_neg hn, if_neg hl, if_neg hr]⟩))

/-- The frame received is decoded and its count compared. -/
theorem checkStep_moved {s t : State} (h : checkStep s = .moved t) :
    s.rxLen.toNat ≤ 256 ∧
    ((∃ vs u, decodeFrame s.rx s.slave s.expFc = .values vs ∧
        loadValues vs (checkCrc s.rx s) = .moved u ∧ t = finishValues vs u) ∨
      (∃ addr count, decodeFrame s.rx s.slave s.expFc = .echo addr count ∧
        t = finishEcho count (checkCrc s.rx s)) ∨
      (∃ e, decodeFrame s.rx s.slave s.expFc = .err e ∧
        t = raise e.status e.code (checkCrc s.rx s))) := by
  unfold checkStep at h
  split at h
  · cases h
  · rename_i hl
    have hl' : s.rxLen.toNat ≤ 256 := by
      have : Config.maxFrame = 256 := rfl
      omega
    refine ⟨hl', ?_⟩
    split at h
    · obtain ⟨u, hu, h⟩ := andThen_moved h
      exact .inl ⟨_, u, ‹_›, hu, by simpa using h.symm⟩
    · exact .inr (.inl ⟨_, _, ‹_›, by simpa using h.symm⟩)
    · exact .inr (.inr ⟨_, ‹_›, by simpa using h.symm⟩)

end Sys2Proof.Machine
end

