-- ==== Sys2Proof/Tests/Slice0.lean ====
section
/-! SUPPORT. Tests/Slice0.lean: the model's own tests, expected values from 95_test_vectors.md and the worked
examples of the rules, and a witness for the hypotheses of every statement. -/

namespace Sys2Proof.Tests

set_option Elab.async false

open Sys2Proof Sys2Proof.Machine

/-! ## Helpers -/

/-- Bytes from numerals. -/
def bytes (l : List Nat) : List Byte := l.map (BitVec.ofNat 8)

/-- Payload beats from numerals. -/
def beats (l : List Nat) : List Word := l.map (BitVec.ofNat 32)

/-- "Connected(7)" of 95_test_vectors.md. -/
def connected7 : State := { State.reset with st := .sIdle, connOpen := true, handle := 7 }

/-- The answer of a write, open, flush or close. -/
def done (h n : Nat) : Answer :=
  { ok := true, handle := BitVec.ofNat 8 h, n := BitVec.ofNat 9 n, bytes := [], dt := 0 }

/-- `TransportError`. -/
def broken : Answer := { ok := false, handle := 0, n := 0, bytes := [], dt := 0 }

/-- The answer of a read. -/
def got (l : List Nat) (dt : Nat) : Answer :=
  { ok := true, handle := 0, n := BitVec.ofNat 9 l.length, bytes := bytes l, dt := dt }

/-- Some fields a step leaves. -/
def seen {α : Type} (f : State → α) : Host.Outcome State Fault Refusal → Option α
  | .next t => some (f t)
  | .fault _ => none
  | .refused _ => none

/-- An all-zero command record. -/
def noRecord : CmdRecord := encodeRecord .disconnect

/-! ## WellFormed: each check refuses an ill-formed term (30 R91) -/

theorem test_wf_readHolding : (Instr.readHolding 1 0 (2 ^ 32)).wf = false := by decide +kernel
theorem test_wf_readInput : (Instr.readInput 1 0 (2 ^ 32)).wf = false := by decide +kernel
theorem test_wf_writeHolding : (Instr.writeHolding 1 0 (2 ^ 32)).wf = false := by decide +kernel
theorem test_wf_connect : (Instr.connect (2 ^ 32) 0 0 0 0).wf = false := by decide +kernel
theorem test_wf_crc16 : (Instr.crc16 (2 ^ 32)).wf = false := by decide +kernel
theorem test_wf_crcCheck : (Instr.crcCheck (2 ^ 32)).wf = false := by decide +kernel
theorem test_wf_largest : (Instr.crcCheck (2 ^ 32 - 1)).wf = true := by decide +kernel

/-! ## Decode: a record written out for each command (30 R91, R93) -/

theorem test_decode_readHolding :
    decode (bytes [0x03, 1, 0x0B, 0, 4, 0, 0, 0, 0, 0, 0, 0, 0, 0, 0, 0, 0, 0, 0, 0, 0, 0, 0, 0, 0, 0, 0]) =
      .ok (.readHolding 1 0x000B 4) := by rfl

theorem test_decode_readInput :
    decode (bytes [0x04, 2, 0, 1, 0x7E, 0, 0, 0, 0, 0, 0, 0, 0, 0, 0, 0, 0, 0, 0, 0, 0, 0, 0, 0, 0, 0, 0]) =
      .ok (.readInput 2 0x0100 126) := by rfl

theorem test_decode_writeHolding :
    decode (bytes [0x10, 3, 0xFF, 0xFF, 0, 0, 0, 0x80, 0, 0, 0, 0, 0, 0, 0, 0, 0, 0, 0, 0, 0, 0, 0, 0, 0, 0, 0]) =
      .ok (.writeHolding 3 0xFFFF 2147483648) := by rfl

theorem test_decode_connect :
    decode (bytes [0x80, 0, 0, 0, 4, 0, 0, 0, 0x80, 0x25, 0, 0, 8, 0, 1, 0, 0, 0, 0, 0, 0, 0, 0, 0, 0, 0, 0]) =
      .ok (.connect 4 9600 8 0 1) := by rfl

theorem test_decode_disconnect :
    decode (bytes [0x81, 9, 9, 9, 9, 0, 0, 0, 0, 0, 0, 0, 0, 0, 0, 0, 0, 0, 0, 0, 0, 0, 0, 0, 0, 0, 0]) =
      .ok .disconnect := by rfl

theorem test_decode_setTiming :
    decode (bytes [0x82, 0, 0, 0, 0, 0, 0, 0, 0, 0, 0, 0, 0, 0, 0, 1, 0, 0, 0, 50, 0, 0, 0, 0, 1, 0, 0]) =
      .ok (.setTiming 1 50 256) := by rfl

theorem test_decode_crc16 :
    decode (bytes [0x90, 0, 0, 0, 6, 0, 0, 0, 0, 0, 0, 0, 0, 0, 0, 0, 0, 0, 0, 0, 0, 0, 0, 0, 0, 0, 0]) =
      .ok (.crc16 6) := by rfl

theorem test_decode_crcCheck :
    decode (bytes [0x91, 0, 0, 0, 8, 0, 0, 0, 0, 0, 0, 0, 0, 0, 0, 0, 0, 0, 0, 0, 0, 0, 0, 0, 0, 0, 0]) =
      .ok (.crcCheck 8) := by rfl

theorem test_decode_reserved :
    decode (bytes [0x06, 0, 0, 0, 0, 0, 0, 0, 0, 0, 0, 0, 0, 0, 0, 0, 0, 0, 0, 0, 0, 0, 0, 0, 0, 0, 0]) =
      .error (.reservedOpcode 0x06) := by rfl

theorem test_decode_short : decode (bytes [0x81]) = .error (.wrongLength 1) := by rfl

/-! ## Frames (30 R103, R105; 41 R154, R159) -/

theorem test_encodeWrite : encodeWrite 1 0 [12, 0, 0, 0] =
    bytes [0x01, 0x10, 0, 0, 0, 4, 8, 0, 0x0C, 0, 0, 0, 0, 0, 0, 0x7A, 0x7A] := by decide +kernel

theorem test_short_frame : decodeFrame (bytes [0x01, 0x03, 0x40, 0x21]) 1 3 = .err .malformedFrame := by decide +kernel

/-! ## One step of each command: its acceptance, and one step on the way -/

/-- 43 R231, 95 X4: the request is encoded and its write is due. -/
theorem test_readHolding_accepted :
    seen (fun t => (t.st, t.portCall, t.trace)) (exec (.readHolding 1 0 4) connected7) =
    some (.sTx, some (.write 7 (bytes [0x01, 0x03, 0, 0, 0, 4, 0x44, 0x09])), [.cmd (.readHolding 1 0 4)]) := by
  decide +kernel

/-- 95 X5: its response is checked. -/
theorem test_readHolding_checked :
    seen (fun t => (t.st, t.rspOut, t.rvOut)) (step { connected7 with
      st := .sCheck, cmd := some (.readHolding 1 0 4), slave := 1, expFc := 3, reqCount := 4, rxLen := 13
      rxbuf := Memory.writeFrom [] 0 (bytes [0x01, 0x03, 0x08, 0, 1, 0, 2, 0, 3, 0, 4, 0x0D, 0x14]) }) =
    some (.sIdle, some { status := 0, exc := 0, result := 4 }, [1, 2, 3, 4]) := by decide +kernel

/-- 43 R232, 42 R196: the first five bytes of a response of seven are in; the next read asks for the other two. -/
theorem test_readInput_reads_on :
    seen (fun t => (t.st, t.rem, t.portCall)) (step { connected7 with
      st := .sRx, cmd := some (.readInput 1 0 1), rem := 1000
      answers := [got [0x01, 0x04, 0x02, 0x12, 0x34] 3] }) =
    some (.sRx, 997, some (.read 7 2 997)) := by decide +kernel

/-- 43 R232, 60 R268: the bound is tested on the whole 32-bit count. -/
theorem test_readInput_wide_count :
    seen (fun t => (t.st, t.rspOut)) (exec (.readInput 1 0 65537) connected7) =
    some (.sIdle, some { status := 8, exc := 0, result := 0 }) := by decide +kernel

/-- 43 R233: all beats taken, the request is encoded (30 R103). -/
theorem test_writeHolding_encoded :
    seen (fun t => (t.st, t.portCall)) (step { connected7 with
      cmd := some (.writeHolding 1 0 4), plWait := true, plTaken := 4, vbuf := [(0, 12)] }) =
    some (.sTx, some (.write 7 (bytes [0x01, 0x10, 0, 0, 0, 4, 8, 0, 0x0C, 0, 0, 0, 0, 0, 0, 0x7A, 0x7A]))) := by
  decide +kernel

/-- 95 X3, 43 R233: 70000 fails its check and is not stored; the command then answers. -/
theorem test_writeHolding_out_of_range :
    seen (fun t => (t.plGood, t.vbuf)) (step { connected7 with
      cmd := some (.writeHolding 1 0 1), plWait := true, payload := beats [70000] }) = some (false, []) ∧
    seen (fun t => (t.st, t.rspOut)) (step { connected7 with
      cmd := some (.writeHolding 1 0 1), plWait := true, plTaken := 1, plGood := false }) =
    some (.sIdle, some { status := 10, exc := 0, result := 0 }) := by decide +kernel

/-- 42 R182: `T.open` is issued with no byte of its name taken; then a byte passes straight through, the upper bits of
its beat ignored (30 R92). -/
theorem test_connect_forwards_its_name :
    seen (fun t => (t.trace, t.payload, t.plWait)) (step { State.reset with
      st := .sOpen, cmd := some (.connect 4 9600 8 0 1), callWait := true, payload := beats [0x43] }) =
      some ([.call (.openPort 4 9600 8 0 1)], beats [0x43], true) ∧
    seen (fun t => (t.trace, t.payload, t.plWait, t.plTaken)) (step { State.reset with
      st := .sOpen, cmd := some (.connect 4 9600 8 0 1), plWait := true, plTaken := 3, payload := beats [0x133] }) =
      some ([.forward 0x133 0x33], [], false, 0) := by decide +kernel

/-- 42 R183, R184: superseding, and the open fails. -/
theorem test_connect_supersedes_and_fails :
    seen (fun t => (t.st, t.portCall)) (exec (.connect 0 9600 8 0 1) connected7) =
      some (.sClosing, some (.close 7)) ∧
    seen (fun t => (t.st, t.connOpen, t.rspOut)) (step { State.reset with
      st := .sOpen, cmd := some (.connect 0 9600 8 0 1), answers := [broken] }) =
      some (.sDisc, false, some { status := 1, exc := 0, result := 0 }) := by decide +kernel

/-- 42 R190. -/
theorem test_disconnect :
    seen (fun t => (t.st, t.portCall)) (exec .disconnect connected7) = some (.sClosing, some (.close 7)) ∧
    seen (fun t => (t.st, t.connOpen, t.rspOut)) (step { connected7 with
      st := .sClosing, op := 0x81, cmd := some .disconnect, answers := [done 0 0] }) =
      some (.sDisc, false, some { status := 0, exc := 0, result := 1 }) := by decide +kernel

/-- 42 R191. -/
theorem test_setTiming :
    seen (fun t => (t.tSettle, t.tResp, t.tDrain)) (exec (.setTiming 0 50 3) State.reset) =
    some (0, 50, 3) := by decide +kernel

/-- 40 R134: the last beat is folded. -/
theorem test_crc16_beat :
    seen (fun t => (t.crc, t.payload, t.trace)) (step { State.reset with
      cmd := some (.crc16 6), op := 0x90, plWait := true, plTaken := 5
      crc := crc16 (bytes [1, 3, 0, 0, 0]), payload := beats [4, 9] }) =
    some (0x0944, beats [9], [.payload 4]) := by decide +kernel

/-- 40 R134: and then answered. -/
theorem test_crc16_answers :
    seen (fun t => t.rspOut) (step { State.reset with
      cmd := some (.crc16 6), op := 0x90, plWait := true, plTaken := 6, crc := 0x0944 }) =
    some (some { status := 0, exc := 0, result := 0x0944 }) := by decide +kernel

/-- 40 R135: the last bit of the trailer right, and wrong. -/
theorem test_crcCheck_trailer :
    ∀ x ∈ [(0xCA, true), (0xCB, false)], seen (fun t => t.plGood) (step { State.reset with
      cmd := some (.crcCheck 8), plWait := true, plTaken := 7
      crc := crc16 (bytes [1, 0x10, 0, 0, 0, 4]), payload := beats [x.1] }) = some x.2 := by decide +kernel

/-- 40 R135: `n = 2` succeeds for `FF FF`, here its first byte. -/
theorem test_crcCheck_two :
    seen (fun t => (t.plGood, t.crc)) (step { State.reset with
      cmd := some (.crcCheck 2), plWait := true, crc := 0xFFFF, payload := beats [0xFF, 0xFF] }) =
    some (true, 0xFFFF) := by decide +kernel

/-- 30 R95, R96: the host takes the record; a value beat follows, once it takes it. -/
theorem test_value_beats_follow_the_record :
    let s := { connected7 with
      cmd := some (.readInput 1 0 2), rspOut := some (Response.success 2), rvOut := [5, 6], rvReady := false }
    seen (fun t => (t.rspOut, t.rvOut, t.busy, t.trace)) (step s) =
      some (none, [5, 6], true, [.rsp (Response.success 2)]) ∧
    seen (fun t => (t.rvOut, t.busy, t.trace)) (step { s with rspOut := none, rvReady := true }) =
      some ([6], true, [.value 5]) := by decide +kernel

/-- 42 R188: `T_SETTLE = 0` passes straight on, a reset can land there. -/
theorem test_settle_stands_between_steps :
    let s := { connected7 with st := .sSettle, cmd := some (.connect 0 0 0 0 0) }
    seen (fun t => (t.st, t.portCall)) (step s) = some (.sSyncFlush, some (.flush 7)) ∧
    seen (fun t => (t.st, t.trace)) (step { s with rst := true }) = some (.sDisc, [.rst]) := by decide +kernel

/-- The opcode table's word for `CONNECT` runs as the first instruction after reset. -/
theorem test_fetch_connect :
    seen (fun t => (t.st, t.trace)) (step (State.reset.withFetchWord 8 0x80)) =
    some (.sOpen, [.cmd (.connect 0 0 0 0 0)]) := by decide +kernel

/-! ## Witnesses: for every statement with hypotheses, a state and operands that meet them all -/

theorem accepts_reset : State.reset.accepts := ⟨⟨by decide +kernel, rfl, rfl, rfl, rfl⟩, rfl⟩

theorem accepts_connected7 : connected7.accepts := ⟨⟨by decide +kernel, rfl, rfl, rfl, rfl⟩, rfl⟩

theorem witness_DecodeOfEncodeIsTheInstruction :
    (Instr.crc16 (2 ^ 32 - 1)).wf = true ∧ (Instr.readHolding 255 0xFFFF 0).wf = true := by decide +kernel

theorem witness_DecodedInstructionReencodes :
    ∃ b i, decode b = .ok i := ⟨_, _, test_decode_disconnect⟩

theorem witness_OpcodeSelectsTheCommand :
    ∀ op ∈ [0x03#8, 0x04#8, 0x10#8, 0x80#8, 0x81#8, 0x82#8, 0x90#8, 0x91#8],
      ∃ r : CmdRecord, r.op = op := fun op _ => ⟨{ noRecord with op := op }, rfl⟩

theorem witness_UnusedFieldsAreIgnored :
    ({ noRecord with op := 0x10 } : CmdRecord).op ∈ [0x03#8, 0x04#8, 0x10#8] ∧
    ({ noRecord with op := 0x80 } : CmdRecord).op = 0x80#8 ∧
    ({ noRecord with op := 0x82 } : CmdRecord).op = 0x82#8 ∧
    ({ noRecord with op := 0x91 } : CmdRecord).op ∈ [0x90#8, 0x91#8] ∧
    noRecord.op = 0x81#8 ∧ ({ noRecord with baud := 1 } : CmdRecord).op = noRecord.op := by decide +kernel

/-- The reserved opcodes beside the assigned ones (30 R94). -/
theorem witness_ReservedOpcodeAnswersIllegalCommand :
    ∀ op ∈ [0x00#8, 0x02#8, 0x05#8, 0x0F#8, 0x11#8, 0x7F#8, 0x83#8, 0x8F#8, 0x92#8, 0xFF#8],
      op ∉ [0x03#8, 0x04#8, 0x10#8, 0x80#8, 0x81#8, 0x82#8, 0x90#8, 0x91#8] ∧
      ∃ s : State, s.rst = false ∧ s.accepts ∧ s.cmdIn = [{ noRecord with op := op }] :=
  fun op h => ⟨by revert op h; decide, { State.reset with cmdIn := [{ noRecord with op := op }] },
    rfl, ⟨⟨rfl, rfl, rfl, rfl, rfl⟩, rfl⟩, rfl⟩

theorem witness_StepRunsTheDecodedCommand :
    (State.reset.rst = false ∧ State.reset.cmdReady = true ∧ State.reset.cmdIn = []) ∧
    ∃ s : State, s.rst = false ∧ s.cmdReady = true ∧ s.cmdIn = [noRecord] ∧
      decodeRecord noRecord = .ok .disconnect :=
  ⟨by decide +kernel, { connected7 with cmdIn := [noRecord] }, rfl, by decide +kernel, rfl, rfl⟩

theorem witness_TableWordRunsAsNextCommand : decodeTableWord 8 0x81 = some .disconnect := by rfl

theorem witness_CommandWaitsWhileEngineIsBusy :
    ∃ s t : State, s.cmdReady = false ∧ s.rst = false ∧ step s = .next t :=
  ⟨{ connected7 with st := .sTx }, _, by decide +kernel, rfl, rfl⟩

theorem witness_EverySingleBitErrorIsDetected :
    2 ≤ (bytes [0xFF, 0xFF]).length ∧ crcCheck (bytes [0xFF, 0xFF]) = some true ∧
      1 < (bytes [0xFF, 0xFF]).length ∧ 7 < 8 := by decide +kernel

/-- A `CRC16` that has taken one beat of two. -/
def midPayload : State :=
  { State.reset with
    op := 0x90, cmd := some (.crc16 2), plWait := true, plTaken := 1
    crc := crc16 (bytes [1]), payload := beats [2, 9]
    trace := [.cmd (.crc16 2), .payload 1] }

theorem inv_midPayload : Inv midPayload where
  conn := rfl
  command := by decide +kernel
  opcode := by intro i h; cases h; decide
  txFits := by decide +kernel
  rxFits := by decide +kernel
  vFits := by decide +kernel
  receive := ⟨fun h => absurd h (by decide), fun h => absurd h (by decide)⟩
  expected := fun h => absurd h (by decide)
  payload := by
    refine ⟨fun h => absurd h (by decide), fun _ => ⟨by decide +kernel, fun i n h hn => ?_,
      fun n h => by decide +kernel, fun n h => ?_, fun _ _ n h => ?_⟩⟩
    · obtain rfl := Option.some.inj h
      obtain rfl := Option.some.inj hn
      exact ⟨by decide, fun h => absurd h (by decide)⟩
    · exact absurd (Option.some.inj h) (by simp)
    · exact absurd (Option.some.inj h) (by simp)
  call := ⟨fun h => absurd h (by decide), fun h => absurd h (by decide)⟩
  request := fun h => absurd h (by decide)
  failure := fun h => by cases h
  response := fun r h => by cases h
  values := fun h => absurd rfl h
  txMem := by decide +kernel
  rxMem := by decide +kernel
  vMem := by decide +kernel

theorem witness_Crc16CommandAnswersTheCrc :
    (State.reset.accepts ∧ 0 ≤ State.reset.payload.length) ∧
    Inv midPayload ∧ midPayload.rst = false ∧ midPayload.rspReady = true ∧ midPayload.plWait = true ∧
      midPayload.cmd = some (.crc16 2) ∧ 2 - midPayload.plTaken ≤ midPayload.payload.length :=
  ⟨⟨accepts_reset, by decide +kernel⟩, inv_midPayload, rfl, rfl, rfl, rfl, by decide +kernel⟩

/-- `n` below, at and above the two bytes of a trailer. -/
theorem witness_CrcCheckCommandTestsTheTrailer :
    ∀ n ∈ [1, 2, 3], ∃ s : State, s.accepts ∧ n ≤ s.payload.length :=
  fun n h => ⟨{ State.reset with payload := beats [1, 2, 3] }, ⟨⟨by decide +kernel, rfl, rfl, rfl, rfl⟩, rfl⟩,
    by revert n h; decide⟩

theorem witness_WriteRequestLayout : ([] : List Half).length ≤ 123 ∧ (List.replicate 123 (7 : Half)).length ≤ 123 ∧
    ([5, 6] : List Half)[1]? = some 6 := by decide +kernel

/-- One frame for each test of `decode`, in order (41 R154 to R160). -/
theorem witness_DecodeTestsFrameInOrder :
    (bytes [0x01, 0x03, 0x40, 0x21]).length < 5 ∧
    (let b := bytes [0x01, 0x83, 0x02, 0xC0, 0xF0]; 5 ≤ b.length ∧ crcCheck b = some false) ∧
    (let b := bytes [0x01, 0x83, 0x02, 0xC0, 0xF1]; crcCheck b = some true ∧ byteAt b 0 ≠ 2) ∧
    (let b := bytes [0x01, 0x83, 0x02, 0xC0, 0xF1];
      crcCheck b = some true ∧ byteAt b 0 = 1 ∧ byteAt b 1 &&& 0x7F#8 ≠ 0x04#8) ∧
    (let b := bytes [0x01, 0x83, 0x02, 0xC0, 0xF1];
      crcCheck b = some true ∧ byteAt b 0 = 1 ∧ byteAt b 1 &&& 0x7F#8 = 0x03#8 ∧ byteAt b 1 &&& 0x80#8 ≠ 0) ∧
    (let b := crcAppend (bytes [0x01, 0x03, 0x01]);
      5 ≤ b.length ∧ crcCheck b = some true ∧ byteAt b 1 &&& 0x80#8 = 0 ∧ (byteAt b 2).toNat % 2 = 1) ∧
    (let b := bytes [0x01, 0x03, 0x08, 0, 1, 0, 2, 0, 3, 0, 4, 0x0D, 0x14];
      crcCheck b = some true ∧ byteAt b 1 &&& 0x80#8 = 0 ∧ (byteAt b 2).toNat = b.length - 5 ∧
        (byteAt b 2).toNat % 2 = 0) ∧
    (let b := crcAppend (bytes [0x01, 0x10, 0x00, 0x00, 0x00]);
      crcCheck b = some true ∧ byteAt b 1 &&& 0x7F#8 = 0x10#8 ∧ byteAt b 1 &&& 0x80#8 = 0 ∧ b.length ≠ 8) ∧
    (let b := bytes [0x01, 0x10, 0, 0, 0, 4, 0xC1, 0xCA];
      crcCheck b = some true ∧ byteAt b 1 &&& 0x80#8 = 0 ∧ b.length = 8) := by decide +kernel

/-- X5's frame, 95_test_vectors.md. -/
def x5 : List Byte := bytes [0x01, 0x03, 0x08, 0, 1, 0, 2, 0, 3, 0, 4, 0x0D, 0x14]

theorem witness_DecodedValuesAreTheFrameFields :
    x5.length ≤ 256 ∧ decodeFrame x5 1 3 = .values [1, 2, 3, 4] ∧ 3 < ([1, 2, 3, 4] : List Half).length := by
  decide +kernel

theorem witness_AcceptedFrameIsTheResponseItMeans :
    decodeFrame x5 1 ReadKind.holding.fc = .values [1, 2, 3, 4] ∧
    decodeFrame (bytes [0x01, 0x10, 0, 0, 0, 4, 0xC1, 0xCA]) 1 0x10 = .echo 0 4 ∧
    (bytes [0x01, 0x83, 0x02, 0xC0, 0xF1]).length = 5 ∧
    decodeFrame (bytes [0x01, 0x83, 0x02, 0xC0, 0xF1]) 1 3 = .err (.slaveException 2) := by decide +kernel

theorem witness_FramesRoundTripAndCorruptionIsSeen :
    (List.replicate 125 (1 : Half)).length ≤ 125 ∧ (List.replicate 123 (1 : Half)).length ≤ 123 ∧
    (let b := bytes [0x01, 0x83, 0x02, 0xC0, 0xF1]; 5 ≤ b.length ∧ crcCheck b = some true ∧ 4 < b.length) := by
  decide +kernel

theorem witness_ExceptionResponseDecodesToItsCode :
    (0x10#8 ∈ [0x03#8, 0x04#8, 0x10#8]) ∧ 0x04#8 ∈ [0x03#8, 0x04#8, 0x10#8] ∧ (0x04#8 : Byte) ≠ 0x10#8 := by
  decide

/-- Each clause, at the length where the header becomes known. -/
theorem witness_AnnouncedLengthIsBoundedAndStable :
    (bytes [1]).length < 2 ∧ flen (bytes [1]) = none ∧
    byteAt (bytes [1, 0x83]) 1 &&& 0x80#8 ≠ 0 ∧ byteAt (bytes [1, 3]) 1 = 0x03#8 ∧
    byteAt (bytes [1, 0x10]) 1 = 0x10#8 ∧ byteAt (bytes [1, 5]) 1 ∉ [0x03#8, 0x04#8, 0x10#8] ∧
    flen (bytes [1, 3, 255]) = some 260 ∧ flen (bytes [1, 3, 0]) = some 5 := by decide +kernel

theorem witness_SetTimingWritesTheTimers : connected7.accepts := accepts_connected7

theorem witness_DisconnectClosesOnceOrNothing :
    (State.reset.accepts ∧ State.reset.connOpen = false) ∧
    ∃ s : State, s.accepts ∧ s.connOpen = true ∧ s.tReady = true ∧ s.answers = [done 0 0] :=
  ⟨⟨accepts_reset, rfl⟩, { connected7 with answers := [done 0 0] }, accepts_connected7, rfl, rfl, rfl⟩

/-- One with a Connection to close and a stale byte, one without, at `T_SETTLE` ticks exactly. -/
theorem witness_ConnectResynchronisesAndConnects :
    (∃ s : State, s.accepts ∧ s.tReady = true ∧ s.twReady = true ∧ 1 ≤ s.payload.length ∧
      s.answers = [done 0 0] ++ done 7 0 :: [got [9] 0] ++ got [] 0 :: done 0 0 :: [] ∧
      [done 0 0].length = (if s.connOpen then 1 else 0) ∧ Drained [got [9] 0] ∧ s.tSettle.toNat ≤ s.ticks) ∧
    ∃ s : State, s.accepts ∧ s.tReady = true ∧ s.twReady = true ∧ 0 ≤ s.payload.length ∧
      s.answers = [] ++ done 7 0 :: [] ++ got [] 0 :: done 0 0 :: [] ∧
      ([] : List Answer).length = (if s.connOpen then 1 else 0) ∧ Drained [] ∧ s.tSettle.toNat ≤ s.ticks :=
  ⟨⟨{ connected7 with
        payload := beats [65], ticks := 100
        answers := [done 0 0, done 7 0, got [9] 0, got [] 0, done 0 0] },
      ⟨⟨by decide +kernel, rfl, rfl, rfl, rfl⟩, rfl⟩, rfl, rfl, by decide +kernel, rfl, rfl, by unfold Drained; decide, by decide +kernel⟩,
    ⟨{ State.reset with ticks := 100, answers := [done 7 0, got [] 0, done 0 0] },
      ⟨⟨by decide +kernel, rfl, rfl, rfl, rfl⟩, rfl⟩, rfl, rfl, by decide +kernel, rfl, rfl, by unfold Drained; decide, by decide +kernel⟩⟩

theorem witness_ConnectOpenFailureEndsDisconnected :
    ∃ s : State, s.accepts ∧ s.tReady = true ∧ s.twReady = true ∧ 0 ≤ s.payload.length ∧
      s.answers = [done 0 0] ++ broken :: [] ∧
      [done 0 0].length = (if s.connOpen then 1 else 0) ∧ broken.ok = false :=
  ⟨{ connected7 with answers := [done 0 0, broken] }, ⟨⟨by decide +kernel, rfl, rfl, rfl, rfl⟩, rfl⟩, rfl, rfl,
    by decide +kernel, rfl, rfl, rfl⟩

theorem witness_ConnectDrainsWhileBusIsNotSilent :
    ∃ s : State, s.accepts ∧ s.tReady = true ∧ s.twReady = true ∧ 0 ≤ s.payload.length ∧
      s.answers = [] ++ done 7 0 :: [got [9] 0, got [8] 0] ∧
      ([] : List Answer).length = (if s.connOpen then 1 else 0) ∧ (done 7 0).ok = true ∧
      Drained [got [9] 0, got [8] 0] :=
  ⟨{ State.reset with answers := [done 7 0, got [9] 0, got [8] 0] }, ⟨⟨by decide +kernel, rfl, rfl, rfl, rfl⟩, rfl⟩, rfl, rfl,
    by decide +kernel, rfl,
    rfl, rfl, by unfold Drained; decide⟩

/-- Each clause: all of `REM` counted, with ticks to spare; `REM` at 0; no tick. -/
theorem witness_SettleWaitCountsTicksDown :
    (∃ s : State, s.inState .sSettle ∧ 100 ≤ s.ticks ∧ 100 ≤ s.rem.toNat) ∧
    (∃ s : State, s.inState .sSettle ∧ s.rem = 0) ∧
    ∃ s : State, s.inState .sSettle ∧ s.rem ≠ 0 ∧ s.ticks = 0 :=
  ⟨⟨{ connected7 with st := .sSettle, rem := 100, ticks := 101 }, ⟨rfl, rfl, rfl, rfl, rfl⟩, by decide +kernel,
      by decide +kernel⟩,
    ⟨{ connected7 with st := .sSettle }, ⟨rfl, rfl, rfl, rfl, rfl⟩, rfl⟩,
    ⟨{ connected7 with st := .sSettle, rem := 100 }, ⟨rfl, rfl, rfl, rfl, rfl⟩, by decide +kernel, rfl⟩⟩

theorem witness_TooManyRegistersTouchesNothing : State.reset.accepts ∧ 125 < 126 :=
  ⟨accepts_reset, by decide +kernel⟩

theorem witness_TooManyValuesTouchesNothing :
    ∃ s : State, s.accepts ∧ 124 ≤ s.payload.length ∧ 123 < 124 :=
  ⟨{ connected7 with payload := List.replicate 124 70000 }, ⟨⟨by decide +kernel, rfl, rfl, rfl, rfl⟩, rfl⟩, by decide +kernel, by decide +kernel⟩

/-- The first value above the range, and the first below it. -/
theorem witness_InvalidRegisterValueTouchesNothing :
    ∀ v ∈ [65536#32, 0xFFFFFFFF#32], ∃ s : State, s.accepts ∧ 1 ≤ s.payload.length ∧ 1 ≤ 123 ∧
      ∃ x ∈ s.payload.take 1, x.toInt < 0 ∨ 65535 < x.toInt :=
  fun v h => ⟨{ State.reset with payload := [v] }, ⟨⟨rfl, rfl, rfl, rfl, rfl⟩, rfl⟩, by simp, by decide +kernel,
    v, by simp, by
      rcases List.mem_cons.1 h with rfl | h
      · decide
      · obtain rfl := List.mem_singleton.1 h
        decide⟩

theorem inRange_of {l : List Word} (h : l.all beatInRange = true) :
    ∀ v ∈ l, 0 ≤ v.toInt ∧ v.toInt ≤ 65535 := fun v hv => by
  simpa [beatInRange] using List.all_eq_true.1 h v hv

theorem witness_NotConnectedMakesNoCall :
    (State.reset.accepts ∧ State.reset.connOpen = false ∧ 125 ≤ 125) ∧
    ∃ s : State, s.accepts ∧ s.connOpen = false ∧ 2 ≤ s.payload.length ∧ s.vbuf.wf ∧
      ∀ v ∈ s.payload.take 2, 0 ≤ v.toInt ∧ v.toInt ≤ 65535 :=
  ⟨⟨accepts_reset, rfl, by decide +kernel⟩, { State.reset with payload := beats [0, 65535] },
    ⟨⟨by decide +kernel, rfl, rfl, rfl, rfl⟩, rfl⟩, rfl, by decide +kernel, by decide +kernel, inRange_of (by decide +kernel)⟩

/-- X5's two pieces (95_test_vectors.md). -/
theorem pieces_x5 : Pieces x5 [] 1000
    [got [0x01, 0x03, 0x08, 0, 1] 12, got [0, 2, 0, 3, 0, 4, 0x0D, 0x14] 9] :=
  ⟨by decide +kernel, by decide +kernel, by decide +kernel,
    ⟨⟨bytes [0, 2, 0, 3, 0, 4, 0x0D, 0x14], by decide +kernel, by decide +kernel⟩, by decide +kernel,
      by decide +kernel, by decide +kernel, by decide +kernel, by show _ = _; decide +kernel⟩⟩

theorem readResponse_x5 : readResponse 1 .holding [1, 2, 3, 4] = x5 := by decide +kernel

/-- `n = 4` in two pieces, and `n = 0` (43 R237) in one with no time at all. -/
theorem witness_ReadsComplete :
    (∃ s : State, s.accepts ∧ s.tReady = true ∧ s.rvReady = true ∧ s.connOpen = true ∧ s.txbuf.wf ∧ s.rxbuf.wf ∧ s.vbuf.wf ∧
      s.answers = done 0 8 :: [got [0x01, 0x03, 0x08, 0, 1] 12, got [0, 2, 0, 3, 0, 4, 0x0D, 0x14] 9] ++ [] ∧
      (done 0 8).ok = true ∧ (done 0 8).n = 8 ∧
      Pieces (readResponse 1 .holding [1, 2, 3, 4]) [] s.tResp
        [got [0x01, 0x03, 0x08, 0, 1] 12, got [0, 2, 0, 3, 0, 4, 0x0D, 0x14] 9]) ∧
    ∃ (s : State) (a : Answer), s.accepts ∧ s.tReady = true ∧ s.rvReady = true ∧ s.connOpen = true ∧ s.tResp = 0 ∧ s.txbuf.wf ∧ s.rxbuf.wf ∧ s.vbuf.wf ∧
      s.answers = done 0 8 :: [a] ++ [] ∧ Pieces (readResponse 1 .input []) [] s.tResp [a] :=
  ⟨⟨{ connected7 with answers :=
        [done 0 8, got [0x01, 0x03, 0x08, 0, 1] 12, got [0, 2, 0, 3, 0, 4, 0x0D, 0x14] 9] },
      ⟨⟨by decide +kernel, rfl, rfl, rfl, rfl⟩, rfl⟩, rfl, rfl, rfl, by decide +kernel, by decide +kernel, by decide +kernel, rfl, rfl, rfl,
      readResponse_x5 ▸ pieces_x5⟩,
    ⟨{ connected7 with
        tResp := 0
        answers := [done 0 8, { done 0 5 with bytes := readResponse 1 .input [] }] },
      { done 0 5 with bytes := readResponse 1 .input [] },
      ⟨⟨by decide +kernel, rfl, rfl, rfl, rfl⟩, rfl⟩, rfl, rfl, rfl, rfl, by decide +kernel, by decide +kernel, by decide +kernel, rfl,
      ⟨by decide +kernel, by decide +kernel, by decide +kernel, by rw [if_pos rfl]; rfl⟩⟩⟩

/-- The echo of R104's example, in two pieces. -/
theorem pieces_echo : Pieces (writeResponse 1 0 (BitVec.ofNat 16 4)) [] 1000
    [got [0x01, 0x10, 0, 0, 0] 20, got [0x04, 0xC1, 0xCA] 1] :=
  ⟨by decide +kernel, by decide +kernel, by decide +kernel,
    ⟨⟨bytes [0x04, 0xC1, 0xCA], by decide +kernel, by decide +kernel⟩, by decide +kernel,
      by decide +kernel, by decide +kernel, by decide +kernel, by show _ = _; decide +kernel⟩⟩

theorem witness_WriteHoldingCompletes :
    ∃ s : State, s.accepts ∧ s.tReady = true ∧ s.connOpen = true ∧ s.txbuf.wf ∧ s.rxbuf.wf ∧ s.vbuf.wf ∧ 4 ≤ s.payload.length ∧
      (∀ v ∈ s.payload.take 4, 0 ≤ v.toInt ∧ v.toInt ≤ 65535) ∧
      s.answers = done 0 17 :: [got [0x01, 0x10, 0, 0, 0] 20, got [0x04, 0xC1, 0xCA] 1] ++ [] ∧
      (done 0 17).n = BitVec.ofNat 9 (9 + 2 * 4) ∧
      Pieces (writeResponse 1 0 (BitVec.ofNat 16 4)) [] s.tResp
        [got [0x01, 0x10, 0, 0, 0] 20, got [0x04, 0xC1, 0xCA] 1] :=
  ⟨{ connected7 with
      payload := beats [12, 0, 0, 65535]
      answers := [done 0 17, got [0x01, 0x10, 0, 0, 0] 20, got [0x04, 0xC1, 0xCA] 1] },
    ⟨⟨by decide +kernel, rfl, rfl, rfl, rfl⟩, rfl⟩, rfl, rfl, by decide +kernel, by decide +kernel, by decide +kernel, by decide +kernel,
    inRange_of (by decide +kernel), rfl, rfl, pieces_echo⟩

theorem witness_RegisterCommandBecomesItsExchange :
    ∃ s : State, s.accepts ∧ s.tReady = true ∧ s.connOpen = true ∧ s.txbuf.wf ∧ s.vbuf.wf ∧ 125 ≤ 125 ∧
      1 ≤ s.payload.length ∧ ∀ v ∈ s.payload.take 1, 0 ≤ v.toInt ∧ v.toInt ≤ 65535 :=
  ⟨{ connected7 with payload := beats [65535] }, ⟨⟨by decide +kernel, rfl, rfl, rfl, rfl⟩, rfl⟩, rfl, rfl, by decide +kernel, by decide +kernel,
    by decide +kernel, by decide +kernel, inRange_of (by decide +kernel)⟩

/-- `TransportError`, and one byte short. -/
theorem witness_FailedWriteIsFlushed :
    ∀ a ∈ [broken, done 0 7], ∃ s : State, s.inState .sTx ∧ s.rspReady = true ∧ s.tReady = true ∧ s.answers = [a, done 0 0] ∧
      ¬ (a.ok = true ∧ a.n = s.txLen) :=
  fun a h => ⟨{ connected7 with st := .sTx, txLen := 8, answers := [a, done 0 0] }, ⟨rfl, rfl, rfl, rfl, rfl⟩, rfl, rfl,
    rfl, by revert a h; decide⟩

theorem witness_EmptyReadTimesOut :
    ∃ s : State, s.inState .sRx ∧ s.rspReady = true ∧ s.tReady = true ∧ s.rxLen.toNat ≤ 256 ∧ s.answers = [got [] 5, done 0 0] ∧
      (got [] 5).bytes = [] ∧ (got [] 5).n = 0 :=
  ⟨{ connected7 with st := .sRx, answers := [got [] 5, done 0 0] }, ⟨rfl, rfl, rfl, rfl, rfl⟩, rfl, rfl, by decide +kernel, rfl,
    rfl, rfl⟩

/-- A header that announces 257 bytes, and a response still incomplete when the time is used up exactly. -/
theorem witness_ReadPhaseFailsAfterCounting :
    (∃ s : State, s.inState .sRx ∧ s.rspReady = true ∧ s.tReady = true ∧ s.rxbuf.wf ∧ s.answers = [got [1, 3, 252] 1, done 0 0] ∧
      (got [1, 3, 252] 1).bytes.length = (got [1, 3, 252] 1).n.toNat ∧
      (got [1, 3, 252] 1).bytes.length ≤ target s.rx - s.rxLen.toNat ∧
      flen (s.rx ++ (got [1, 3, 252] 1).bytes) = some 257) ∧
    ∃ s : State, s.inState .sRx ∧ s.rspReady = true ∧ s.tReady = true ∧ s.rxbuf.wf ∧ s.answers = [got [1, 3, 2] 10, done 0 0] ∧
      (got [1, 3, 2] 10).bytes.length ≤ target s.rx - s.rxLen.toNat ∧
      flen (s.rx ++ (got [1, 3, 2] 10).bytes) = some 7 ∧ s.rem.toNat ≤ (got [1, 3, 2] 10).dt :=
  ⟨⟨{ connected7 with st := .sRx, rem := 9, answers := [got [1, 3, 252] 1, done 0 0] }, ⟨rfl, rfl, rfl, rfl, rfl⟩, rfl, rfl,
      by decide +kernel, rfl, by decide +kernel, by decide +kernel, by decide +kernel⟩,
    ⟨{ connected7 with st := .sRx, rem := 10, answers := [got [1, 3, 2] 10, done 0 0] }, ⟨rfl, rfl, rfl, rfl, rfl⟩, rfl, rfl,
      by decide +kernel, rfl, by decide +kernel, by decide +kernel, by decide +kernel⟩⟩

/-- The exception response of R105, in one piece. -/
theorem pieces_exception :
    Pieces (bytes [0x01, 0x83, 0x02, 0xC0, 0xF1]) [] 1000 [got [0x01, 0x83, 0x02, 0xC0, 0xF1] 1] :=
  ⟨by decide +kernel, by decide +kernel, by decide +kernel, by show _ = _; decide +kernel⟩

theorem witness_RefusedFrameIsFlushedAndReported :
    ∃ s : State, s.inState .sTx ∧ s.rspReady = true ∧ s.tReady = true ∧ s.rxbuf.wf ∧
      s.answers = done 0 8 :: [got [0x01, 0x83, 0x02, 0xC0, 0xF1] 1] ++ done 0 0 :: [] ∧
      (done 0 8).n = s.txLen ∧
      Pieces (bytes [0x01, 0x83, 0x02, 0xC0, 0xF1]) [] s.tResp [got [0x01, 0x83, 0x02, 0xC0, 0xF1] 1] ∧
      flen (bytes [0x01, 0x83, 0x02, 0xC0, 0xF1]) = some 5 ∧
      decodeFrame (bytes [0x01, 0x83, 0x02, 0xC0, 0xF1]) s.slave s.expFc = .err (.slaveException 2) :=
  ⟨{ connected7 with
      st := .sTx, txLen := 8, slave := 1, expFc := 3
      answers := [done 0 8, got [0x01, 0x83, 0x02, 0xC0, 0xF1] 1, done 0 0] },
    ⟨rfl, rfl, rfl, rfl, rfl⟩, rfl, rfl, by decide +kernel, rfl, by decide +kernel, pieces_exception, by decide +kernel, by decide +kernel⟩

/-- Four values where three were asked for, and an echo of four where five were sent. -/
theorem witness_CountMismatchIsFlushedAndReported :
    (∃ s : State, s.inState .sTx ∧ s.rspReady = true ∧ s.tReady = true ∧ s.rxbuf.wf ∧ (done 0 8).n = s.txLen ∧
      s.answers = done 0 8 :: [got [0x01, 0x03, 0x08, 0, 1] 12, got [0, 2, 0, 3, 0, 4, 0x0D, 0x14] 9] ++
        done 0 0 :: [] ∧
      Pieces x5 [] s.tResp [got [0x01, 0x03, 0x08, 0, 1] 12, got [0, 2, 0, 3, 0, 4, 0x0D, 0x14] 9] ∧
      flen x5 = some x5.length ∧ decodeFrame x5 s.slave s.expFc = .values [1, 2, 3, 4] ∧
      4 ≠ s.reqCount.toNat) ∧
    ∃ s : State, s.inState .sTx ∧ s.rspReady = true ∧ s.tReady = true ∧ s.rxbuf.wf ∧ (done 0 19).n = s.txLen ∧
      s.answers = done 0 19 :: [got [0x01, 0x10, 0, 0, 0] 20, got [0x04, 0xC1, 0xCA] 1] ++ done 0 0 :: [] ∧
      Pieces (writeResponse 1 0 (BitVec.ofNat 16 4)) [] s.tResp
        [got [0x01, 0x10, 0, 0, 0] 20, got [0x04, 0xC1, 0xCA] 1] ∧
      flen (writeResponse 1 0 (BitVec.ofNat 16 4)) = some (writeResponse 1 0 (BitVec.ofNat 16 4)).length ∧
      decodeFrame (writeResponse 1 0 (BitVec.ofNat 16 4)) s.slave s.expFc = .echo 0 4 ∧ 4 ≠ s.reqCount :=
  ⟨⟨{ connected7 with
        st := .sTx, txLen := 8, slave := 1, expFc := 3, reqCount := 3
        answers := [done 0 8, got [0x01, 0x03, 0x08, 0, 1] 12,
          got [0, 2, 0, 3, 0, 4, 0x0D, 0x14] 9, done 0 0] },
      ⟨rfl, rfl, rfl, rfl, rfl⟩, rfl, rfl, by decide +kernel, by decide +kernel, rfl, pieces_x5, by decide +kernel, by decide +kernel, by decide +kernel⟩,
    ⟨{ connected7 with
        st := .sTx, txLen := 19, slave := 1, expFc := 0x10, reqCount := 5
        answers := [done 0 19, got [0x01, 0x10, 0, 0, 0] 20, got [0x04, 0xC1, 0xCA] 1, done 0 0] },
      ⟨rfl, rfl, rfl, rfl, rfl⟩, rfl, rfl, by decide +kernel, by decide +kernel, rfl, pieces_echo, by decide +kernel, by decide +kernel,
      by decide +kernel⟩⟩

/-- One beat at a time, for a command that takes its payload at rest and for `CONNECT`, whose transport takes the byte
or not, before the last one and at the last one; and a shortage, without a Connection and with one to close. -/
theorem witness_PayloadShortageWaits :
    (∃ (s : State) (i : Instr), s.rst = false ∧ s.quiet = true ∧ s.plWait = true ∧ s.cmd = some i ∧
      i.count? = some 2 ∧ Instr.payloadAtRest i = true ∧ s.plTaken < 2 ∧ s.payload = beats [2, 9]) ∧
    (∀ n ∈ [1, 2], ∀ ready ∈ [false, true], ∃ (s : State) (i : Instr), s.rst = false ∧ s.quiet = true ∧
      s.plWait = true ∧ s.cmd = some i ∧ i.count? = some n ∧ Instr.isConnect i = true ∧ s.plTaken < n ∧
      s.twReady = ready ∧ s.payload = beats [65]) ∧
    ∀ b ∈ [false, true], ∃ (s : State) (pre rest : List Answer), s.accepts ∧ s.payload.length < 2 ∧
      s.connOpen = b ∧ s.tReady = true ∧ s.twReady = true ∧ s.answers = pre ++ rest ∧
      pre.length = (if s.connOpen then 1 else 0) :=
  ⟨⟨midPayload, .crc16 2, rfl, rfl, rfl, rfl, rfl, rfl, by decide +kernel, rfl⟩,
    fun n h ready _ => ⟨{ State.reset with
        st := .sOpen, cmd := some (.connect n 0 0 0 0), plWait := true, twReady := ready, payload := beats [65] },
      _, rfl, rfl, rfl, rfl, rfl, rfl, show 0 < n by revert n h; decide, rfl, rfl⟩,
    fun b h => by
      rcases List.mem_cons.1 h with rfl | h
      · exact ⟨State.reset, [], [], accepts_reset, by decide, rfl, rfl, rfl, rfl, rfl⟩
      · obtain rfl := List.mem_singleton.1 h
        exact ⟨{ connected7 with payload := beats [65], answers := [done 0 0, broken] }, [done 0 0], [broken],
          ⟨⟨by decide +kernel, rfl, rfl, rfl, rfl⟩, rfl⟩, by decide, rfl, rfl, rfl, rfl, rfl⟩⟩

/-- Each clause: the record refused, and taken; a beat refused, and taken, the last one and one before it. -/
theorem witness_ResponseWaitsForTheHost :
    (∀ ready ∈ [false, true], ∃ s : State, s.rst = false ∧ s.rspOut = some (Response.success 1) ∧
      s.rspReady = ready) ∧
    (∀ rest ∈ [[], [(6 : Half)]], ∀ ready ∈ [false, true], ∃ s : State, s.rst = false ∧ s.rspOut = none ∧
      s.rvOut = 5 :: rest ∧ s.rvReady = ready) :=
  ⟨fun ready _ => ⟨{ connected7 with rspOut := some (Response.success 1), rspReady := ready }, rfl, rfl, rfl⟩,
    fun rest _ ready _ => ⟨{ connected7 with rvOut := 5 :: rest, rvReady := ready }, rfl, rfl, rfl, rfl⟩⟩

/-- A call not taken, and one not answered. -/
theorem witness_UnansweredCallWaits :
    (∃ s : State, s.rst = false ∧ s.quiet = true ∧ s.st.awaitsAnswer = true ∧ s.plWait = false ∧
      s.callWait = true ∧ s.tReady = false) ∧
    ∃ s : State, s.rst = false ∧ s.quiet = true ∧ s.st.awaitsAnswer = true ∧ s.plWait = false ∧
      s.callWait = false ∧ s.answers = [] :=
  ⟨⟨{ connected7 with st := .sTx, callWait := true, tReady := false }, rfl, rfl, rfl, rfl, rfl, rfl⟩,
    ⟨{ connected7 with st := .sRx }, rfl, rfl, rfl, rfl, rfl, rfl⟩⟩

theorem witness_ResetInputForgetsAndCallsNothing :
    ∃ s : State, s.rst = true ∧ s.callOutstanding = true :=
  ⟨{ connected7 with st := .sRx, rst := true }, rfl, rfl⟩

/-- A state in the middle of an exchange, with the history of R80, R74 and R202, whose response is about to be
read. -/
def midExchange : State :=
  { connected7 with
    st := .sRx, slave := 1, op := 0x03, expFc := 3, reqCount := 4, txLen := 8, rem := 1000
    cmd := some (.readHolding 1 0 4)
    answers := [got [0x01, 0x03, 0x08, 0, 1] 12, got [0, 2, 0, 3, 0, 4, 0x0D, 0x14] 9]
    trace := [.cmd (.connect 0 9600 8 0 1), .call (.openPort 0 9600 8 0 1), .reply (.opened 7),
      .rsp (Response.success 1), .cmd (.readHolding 1 0 4),
      .call (.write 7 (encodeRead 1 .holding 0 4)), .reply (.written 8), .call (.read 7 5 1000)] }

theorem inv_midExchange : Inv midExchange where
  conn := rfl
  command := by decide +kernel
  opcode := by intro i h; cases h; decide
  txFits := by decide +kernel
  rxFits := by decide +kernel
  vFits := by decide +kernel
  receive := ⟨fun _ => by decide +kernel, fun h => by cases h⟩
  expected := fun _ => ⟨rfl, fun i n h hn => by cases h; cases hn; rfl⟩
  payload := ⟨fun _ => ⟨rfl, rfl⟩, fun h => absurd h (by decide)⟩
  call := ⟨fun h => absurd h (by decide), fun h => absurd h (by decide)⟩
  request := fun h => absurd h (by decide)
  failure := fun h => by cases h
  response := fun r h => by cases h
  values := fun h => absurd rfl h
  txMem := by decide +kernel
  rxMem := by decide +kernel
  vMem := by decide +kernel

theorem next_of_seen {α : Type} {f : State → α} {x : α} {o : Host.Outcome State Fault Refusal}
    (h : seen f o = some x) : ∃ t, o = .next t := by
  cases o with
  | next t => exact ⟨t, rfl⟩
  | fault e => cases h
  | refused e => cases h

theorem answers_of_st {x : SessionState} {o : Host.Outcome State Fault Refusal}
    (h : seen (fun t => t.st) o = some x) : ∃ t, o = .next t := next_of_seen h

theorem steps_midExchange : ∃ t, step midExchange = .next t :=
  answers_of_st (x := .sRx) (by decide +kernel)

theorem witness_StepKeepsTheInvariant : ∃ s t : State, Inv s ∧ s.rst = false ∧ step s = .next t :=
  ⟨_, steps_midExchange.choose, inv_midExchange, rfl, steps_midExchange.choose_spec⟩

/-- The refusal a step answers. -/
def refusalOf : Host.Outcome State Fault Refusal → Option Refusal
  | .next _ => none
  | .fault _ => none
  | .refused x => some x

theorem refused_of {x : Refusal} {o : Host.Outcome State Fault Refusal} (h : refusalOf o = some x) :
    o = .refused x := by
  cases o with
  | next t => cases h
  | fault e => cases h
  | refused e => exact congrArg _ (Option.some.inj h)

/-- A step that goes on, and one refused: six bytes where five were asked for. -/
theorem witness_StepStopsOnlyOnABrokenReadAnswer :
    Inv midExchange ∧ (∃ t, step midExchange = .next t) ∧
    ∃ s : State, s.rst = false ∧ step s = .refused .readAnswerTooLong :=
  ⟨inv_midExchange, steps_midExchange, { midExchange with answers := [got [1, 3, 8, 0, 1, 0] 0] }, rfl,
    refused_of (by decide +kernel)⟩

theorem witness_StepKeepsTheHandleDiscipline :
    ∃ t, Inv midExchange ∧ HandlesKept midExchange ∧ step midExchange = .next t :=
  ⟨_, inv_midExchange, by unfold HandlesKept; decide, steps_midExchange.choose_spec⟩

theorem witness_StepKeepsThePortOrder :
    ∃ t, Inv midExchange ∧ PortsOrdered midExchange ∧ step midExchange = .next t :=
  ⟨_, inv_midExchange, by unfold PortsOrdered; decide, steps_midExchange.choose_spec⟩

theorem witness_StepKeepsTheFlushDiscipline :
    ∃ t, Inv midExchange ∧ FlushesKept midExchange ∧ step midExchange = .next t :=
  ⟨_, inv_midExchange, ⟨.written, by decide +kernel, by decide +kernel⟩, steps_midExchange.choose_spec⟩

theorem witness_PortCallsKeepTheirBounds : ∃ t, Inv midExchange ∧ step midExchange = .next t :=
  ⟨_, inv_midExchange, steps_midExchange.choose_spec⟩

theorem steps_midPayload : ∃ t, step midPayload = .next t :=
  answers_of_st (x := .sDisc) (by decide +kernel)

theorem witness_CommandsAnswerOnlyTheirStatuses :
    (∃ t, State.reset.cmdReady = true ∧ exec (.readInput 1 0 126) State.reset = .next t) ∧
    ∃ t, Inv midExchange ∧ midExchange.cmd = some (.readHolding 1 0 4) ∧ step midExchange = .next t :=
  ⟨⟨_, by decide +kernel, (answers_of_st (x := .sDisc) (by decide +kernel)).choose_spec⟩, _, inv_midExchange, rfl, steps_midExchange.choose_spec⟩

theorem witness_CommandsWriteOnlyTheirRegisters :
    (∃ t, exec (.crc16 0) State.reset = .next t) ∧
    ∃ t, Inv midPayload ∧ midPayload.rst = false ∧ midPayload.cmd = some (.crc16 2) ∧
      step midPayload = .next t :=
  ⟨answers_of_st (x := .sDisc) (by decide +kernel), _, inv_midPayload, rfl, rfl, steps_midPayload.choose_spec⟩

theorem witness_StoresStayInsideTheFrames :
    State.reset.txbuf.wf ∧ State.reset.rxbuf.wf ∧ State.reset.vbuf.wf ∧
    (∃ t, exec (ReadKind.command .input 1 0 2) State.reset = .next t) ∧
    (∃ t, exec (.writeHolding 1 0 0) State.reset = .next t) ∧
    (∃ t, exec .disconnect State.reset = .next t) ∧
    ∃ t, Inv midExchange ∧ midExchange.rst = false ∧
      midExchange.cmd = some (ReadKind.command .holding 1 0 4) ∧ step midExchange = .next t :=
  ⟨by decide +kernel, by decide +kernel, by decide +kernel, answers_of_st (x := .sDisc) (by decide +kernel),
    answers_of_st (x := .sDisc) (by decide +kernel), answers_of_st (x := .sDisc) (by decide +kernel),
    _, inv_midExchange, rfl, rfl, steps_midExchange.choose_spec⟩

theorem witness_ScratchCarriesNothingBetweenCommands :
    ∃ s s' : State, s ≠ s' ∧ s.atRest ∧ s'.atRest ∧ s.withoutScratch = s'.withoutScratch ∧
      s.txbuf.wf ∧ s.rxbuf.wf ∧ s.vbuf.wf ∧ s'.txbuf.wf ∧ s'.rxbuf.wf ∧ s'.vbuf.wf ∧
      ∃ t, Host.Core.run Sys2Proof.core 1 s = .next t :=
  ⟨{ connected7 with cmdIn := [noRecord] },
    { connected7 with cmdIn := [noRecord], crc := 0x1234, rxbuf := [(3, 9)], rxLen := 200, vLen := 7 },
    by decide +kernel, ⟨by decide +kernel, rfl, rfl, rfl, rfl⟩, ⟨by decide +kernel, rfl, rfl, rfl, rfl⟩, by decide +kernel, by decide +kernel, by decide +kernel, by decide +kernel, by decide +kernel,
    by decide +kernel, by decide +kernel, _, rfl⟩

/-- One that moves, and one that waits for its answer. -/
theorem witness_EngineStopsOnlyForAnInput :
    Inv midExchange ∧ midExchange.rst = false ∧ ¬ midExchange.Waits ∧
    State.Waits { midExchange with answers := [] } :=
  ⟨inv_midExchange, rfl, by unfold State.Waits; decide +kernel, by unfold State.Waits; decide +kernel⟩

/-- A step that moves, and so a run of one step. -/
theorem witness_LaterInputsContinueTheCommand :
    ∃ t, midPayload.rst = false ∧ step midPayload = .next t ∧ t ≠ midPayload ∧
      Host.Core.run Sys2Proof.core 1 midPayload = .next t ∧
      (∀ k v, k < 1 → Host.Core.run Sys2Proof.core k midPayload = .next v → step v ≠ .next v) ∧
      Host.Core.run Sys2Proof.core 0 (t.withMore [] (beats [7]) [] 3) =
        .next (t.withMore [] (beats [7]) [] 3) := by
  obtain ⟨t, ht⟩ := steps_midPayload
  have hne : t ≠ midPayload := by
    rintro rfl
    exact absurd (congrArg (seen fun t => t.plTaken) ht) (by decide +kernel)
  refine ⟨t, rfl, ht, hne, ht, fun k v hk hv => ?_, rfl⟩
  obtain rfl : k = 0 := by omega
  cases hv
  exact fun h => hne (by rw [ht] at h; cases h; rfl)

end Sys2Proof.Tests
end

section
/-! PROOFS. What a step does to the event history. Each operation that logs nothing keeps the
trace; the answer of a call logs one reply; so a step logs one event at most (00_scope.md R13). -/

namespace Sys2Proof.Machine

section
variable (s : State)

/-- A failure logs nothing by itself (60 R277). -/
@[simp] theorem raise_trace (e : Status) (c : Byte) : (raise e c s).trace = s.trace := by
  unfold raise
  split <;> simp

@[simp] theorem latchAttributes_trace (i : Option Instr) : (latchAttributes i s).trace = s.trace := by
  unfold latchAttributes
  split <;> rfl

@[simp] theorem afterBytes_trace : (afterBytes s).trace = s.trace := by
  rcases afterBytes_cases s with ⟨n, -, -, h⟩ | ⟨n, -, -, -, h⟩ | ⟨-, -, h⟩ | ⟨-, -, h⟩ <;> simp [h]

@[simp] theorem checkCrc_trace (b : List Byte) : (checkCrc b s).trace = s.trace := by
  unfold checkCrc
  split <;> rfl

@[simp] theorem finishValues_trace (vs : List Half) : (finishValues vs s).trace = s.trace := by
  unfold finishValues
  split <;> simp

@[simp] theorem finishEcho_trace (count : Half) : (finishEcho count s).trace = s.trace := by
  unfold finishEcho
  split <;> simp

@[simp] theorem awaitBytes_trace (i : Instr) : (awaitBytes i s).trace = s.trace := rfl

end

/-! ## Parts of a transition that log nothing -/

theorem appendRx_trace {bytes : List Byte} {s t : State} (h : appendRx bytes s = .moved t) :
    t.trace = s.trace := by
  obtain ⟨-, rfl⟩ := appendRx_moved h
  rfl

theorem loadValues_trace {vs : List Half} {s t : State} (h : loadValues vs s = .moved t) :
    t.trace = s.trace := by
  obtain ⟨-, rfl⟩ := loadValues_moved h
  rfl

theorem loadRequest_trace {frame : List Byte} {s t : State} (h : loadRequest frame s = .moved t) :
    t.trace = s.trace := by
  obtain ⟨-, rfl⟩ := loadRequest_moved h
  rfl

theorem beginExchange_trace {slave : Byte} {s t : State} (h : beginExchange slave s = .moved t) :
    t.trace = s.trace := by
  rcases beginExchange_moved h with ⟨-, rfl⟩ | ⟨-, rfl⟩ <;> simp

theorem readRequest_trace {k : ReadKind} {slave : Byte} {start : Half} {n : Nat} {s t : State}
    (h : readRequest k slave start n s = .moved t) : t.trace = s.trace := by
  rcases readRequest_moved h with ⟨-, rfl⟩ | ⟨-, u, hu, ht⟩
  · simp
  · rw [beginExchange_trace ht, loadRequest_trace hu]

theorem writeRequest_trace {slave : Byte} {start : Half} {n : Nat} {good : Bool} {s t : State}
    (h : writeRequest slave start n good s = .moved t) : t.trace = s.trace := by
  rcases writeRequest_moved h with ⟨-, rfl⟩ | ⟨-, -, rfl⟩ | ⟨-, -, u, hu, ht⟩
  · simp
  · simp
  · rw [beginExchange_trace ht, loadRequest_trace hu]

theorem crcAnswer_trace {good : Bool} {s t : State} (h : crcAnswer good s = .moved t) :
    t.trace = s.trace := by
  cases h
  rfl

theorem crcCheckAnswer_trace {n : Nat} {good : Bool} {s t : State}
    (h : crcCheckAnswer n good s = .moved t) : t.trace = s.trace := by
  unfold crcCheckAnswer at h
  split at h
  · cases h; simp
  · split at h <;> cases h <;> simp

/-- What a command does first, once accepted, logs nothing more: the line of its acceptance is `accept`'s. -/
theorem first_trace {i : Instr} {s t : State} (h : Instr.first i s = .moved t) : t.trace = s.trace := by
  cases i with
  | readHolding slave start n => exact readRequest_trace h
  | readInput slave start n => exact readRequest_trace h
  | writeHolding slave start n => cases h; rfl
  | connect n baud databits parity stopbits => cases h; split <;> rfl
  | disconnect => cases h; split <;> rfl
  | setTiming settle resp drain => cases h; rfl
  | crc16 n => cases h; exact awaitBytes_trace _ _
  | crcCheck n => cases h; exact awaitBytes_trace _ _

/-! ## Parts of a transition that log one event -/

/-- A payload beat taken in a rest state is one line; going on with all of them is none. -/
theorem takePayload_trace {i : Instr} {n : Nat} {f : Bool → State → Progress} {s t : State}
    (hf : ∀ good u, f good u = .moved t → t.trace = u.trace) (h : takePayload i n f s = .moved t) :
    t.trace = s.trace ∨ ∃ beat, t.trace = s.trace ++ [.payload beat] := by
  rcases takePayload_moved h with ⟨-, beat, rest, -, rfl⟩ | ⟨-, h⟩
  · exact .inr ⟨beat, rfl⟩
  · exact .inl (hf _ { s with plWait := false, plTaken := 0, plGood := true } h)

/-- A payload transfer logs the beat it takes, or the beat of a name it forwards. -/
theorem payloadStep_trace {s t : State} (h : payloadStep s = .moved t) :
    t.trace = s.trace ∨ (∃ beat, t.trace = s.trace ++ [.payload beat]) ∨
      ∃ beat, t.trace = s.trace ++ [.forward beat (beatByte beat)] := by
  obtain ⟨i, n, -, -, ⟨slave, start, -, h⟩ | ⟨baud, databits, parity, stopbits, -, h⟩ | ⟨-, h⟩ | ⟨-, h⟩⟩ :=
    payloadStep_moved h
  · exact (takePayload_trace (fun _ _ => writeRequest_trace) h).imp_right .inl
  · obtain ⟨-, beat, rest, -, rfl⟩ := forwardStep_moved h
    exact .inr (.inr ⟨beat, rfl⟩)
  · exact (takePayload_trace (fun _ _ => crcAnswer_trace) h).imp_right .inl
  · exact (takePayload_trace (fun _ _ => crcCheckAnswer_trace) h).imp_right .inl

/-- The taking of an answer by `f` logs that reply and nothing else (20_memory.md R65). -/
def LogsReply (f : Answer → State → Progress) : Prop :=
  ∀ (a : Answer) (s t : State), f a s = .moved t → ∃ r, t.trace = s.trace ++ [.reply r]

theorem LogsReply.takeAnswer {f : Answer → State → Progress} (hf : LogsReply f) {s t : State}
    (h : takeAnswer f s = .moved t) : ∃ r, t.trace = s.trace ++ [.reply r] := by
  obtain ⟨a, rest, -, h⟩ := takeAnswer_moved h
  exact hf a { s with answers := rest } t h

theorem closeAnswer_logsReply : LogsReply closeAnswer := by
  intro a s t h
  rcases closeAnswer_moved h with ⟨-, rfl⟩ | ⟨-, rfl⟩ <;> exact ⟨_, rfl⟩

theorem openAnswer_logsReply : LogsReply openAnswer := by
  intro a s t h
  rcases openAnswer_moved h with ⟨-, rfl⟩ | ⟨-, rfl⟩
  · exact ⟨.opened a.handle, by simp⟩
  · exact ⟨.transportError, by simp⟩

theorem drainAnswer_logsReply : LogsReply drainAnswer := by
  intro a s t h
  obtain ⟨-, -, ⟨-, rfl⟩ | ⟨-, rfl⟩⟩ := drainAnswer_moved h <;> exact ⟨_, rfl⟩

theorem syncFlushAnswer_logsReply : LogsReply syncFlushAnswer := by
  intro a s t h
  cases h
  exact ⟨.flushed, rfl⟩

theorem writeAnswer_logsReply : LogsReply writeAnswer := by
  intro a s t h
  rcases writeAnswer_moved h with ⟨-, -, rfl⟩ | ⟨-, rfl⟩
  · exact ⟨.written a.n, rfl⟩
  · exact ⟨writeReply a, by simp⟩

theorem readAnswer_logsReply : LogsReply readAnswer := by
  intro a s t h
  obtain ⟨-, -, -, ⟨-, rfl⟩ | ⟨-, u, hu, rfl⟩⟩ := readAnswer_moved h
  · exact ⟨.data [] a.dt, by simp⟩
  · exact ⟨.data a.bytes a.dt, by simp [appendRx_trace hu]⟩

theorem failReturn_logsReply : LogsReply failReturn := by
  intro a s t h
  cases h
  exact ⟨.flushed, rfl⟩

/-- The settle wait logs its end; a tick is no line (42 R188). -/
theorem settleStep_trace {s t : State} (h : settleStep s = .moved t) :
    t.trace = s.trace ∨ ∃ n, t.trace = s.trace ++ [.wait n] := by
  rcases settleStep_moved h with ⟨-, rfl⟩ | ⟨-, -, rfl⟩
  · exact .inr ⟨_, rfl⟩
  · exact .inl rfl

/-- The check of a frame is no transfer (42 R200). -/
theorem checkStep_trace {s t : State} (h : checkStep s = .moved t) : t.trace = s.trace := by
  obtain ⟨-, ⟨vs, u, -, hu, rfl⟩ | ⟨addr, count, -, rfl⟩ | ⟨e, -, rfl⟩⟩ := checkStep_moved h
  · simp [loadValues_trace hu]
  · simp
  · simp

/-- The session state's event logs nothing, the answer it takes, or the end of the settle wait (42 R180). -/
theorem sessionStep_trace {s t : State} (h : sessionStep s = .moved t) :
    t.trace = s.trace ∨ (∃ r, t.trace = s.trace ++ [.reply r]) ∨ ∃ n, t.trace = s.trace ++ [.wait n] := by
  rcases sessionStep_moved h with ⟨-, h⟩ | ⟨-, h⟩ | ⟨-, h⟩ | ⟨-, h⟩ | ⟨-, h⟩ | ⟨-, h⟩ | ⟨-, h⟩ | ⟨-, h⟩ | ⟨-, h⟩
  · exact .inr (.inl (closeAnswer_logsReply.takeAnswer h))
  · exact .inr (.inl (openAnswer_logsReply.takeAnswer h))
  · exact .inr (.inl (drainAnswer_logsReply.takeAnswer h))
  · exact (settleStep_trace h).imp_right .inr
  · exact .inr (.inl (syncFlushAnswer_logsReply.takeAnswer h))
  · exact .inr (.inl (writeAnswer_logsReply.takeAnswer h))
  · exact .inr (.inl (readAnswer_logsReply.takeAnswer h))
  · exact .inl (checkStep_trace h)
  · exact .inr (.inl (failReturn_logsReply.takeAnswer h))

/-! ## The history after a step -/

/-- What an event logged in a step from `s` says of `s`: a call issued is the one offered and belongs to `ST`
(30 R98), a record delivered is the one offered (30 R95), a value beat is the next one (30 R96), a forwarded byte is
its beat's (42 R182), and a reset is seen (70 R300). -/
def State.Logs (s : State) : Event → Prop
  | .cmd _ => True
  | .reserved _ => True
  | .payload _ => True
  | .forward beat byte => byte = beatByte beat
  | .call c => s.callWait = true ∧ s.portCall = some c
  | .reply _ => True
  | .wait _ => True
  | .rsp r => s.rspOut = some r
  | .value v => ∃ rest, s.rspOut = none ∧ s.rvOut = v :: rest
  | .rst => s.rst = true

/-- Between `s` and `t` the history grows by one event at most, which `s` can log (00_scope.md R13). -/
def LogsAtMostOne (s t : State) : Prop :=
  t.trace = s.trace ∨ ∃ e, t.trace = s.trace ++ [e] ∧ s.Logs e

theorem transition_logsAtMostOne {s t : State} (h : transition s = .moved t) : LogsAtMostOne s t := by
  obtain ⟨-, ⟨r, ho, -, rfl⟩ | ⟨v, rest, ho, hv, -, rfl⟩ | ⟨-, -, -, h⟩ | ⟨-, -, -, hc, h⟩ | ⟨-, -, -, -, h⟩⟩ :=
    transition_moved h
  · exact .inr ⟨.rsp r, rfl, ho⟩
  · exact .inr ⟨.value v, rfl, rest, ho, hv⟩
  · rcases payloadStep_trace h with h | ⟨beat, h⟩ | ⟨beat, h⟩
    · exact .inl h
    · exact .inr ⟨_, h, trivial⟩
    · exact .inr ⟨_, h, rfl⟩
  · obtain ⟨-, c, hp, rfl⟩ := callStep_moved h
    exact .inr ⟨.call c, rfl, hc, hp⟩
  · rcases sessionStep_trace h with h | ⟨r, h⟩ | ⟨n, h⟩
    · exact .inl h
    · exact .inr ⟨_, h, trivial⟩
    · exact .inr ⟨_, h, trivial⟩

/-- A step logs one event at most (00_scope.md R13), a reset and an acceptance included. -/
theorem step_logsAtMostOne {s t : State} (h : step s = .next t) : LogsAtMostOne s t := by
  rcases step_next h with ⟨hr, rfl⟩ | ⟨-, -, -, rfl⟩ | ⟨-, -, r, rest, i, -, -, hf⟩ |
    ⟨-, -, r, rest, e, -, -, rfl⟩ | ⟨-, -, -, rfl⟩ | ⟨-, -, ht⟩
  · exact .inr ⟨.rst, rfl, hr⟩
  · exact .inl rfl
  · exact .inr ⟨.cmd i, by simp [first_trace hf], trivial⟩
  · exact .inr ⟨.reserved r.op, by simp, trivial⟩
  · exact .inl rfl
  · exact transition_logsAtMostOne ht

/-! ## The bounds of what is logged -/

/-- Only a `CONNECT` opens, with its own operands (42 R182). -/
theorem openCall_eq_some {cmd : Option Instr} {c : Call} (h : openCall cmd = some c) :
    ∃ n baud databits parity stopbits, cmd = some (.connect n baud databits parity stopbits) ∧
      c = .openPort n baud databits parity stopbits := by
  unfold openCall at h
  split at h <;> cases h
  exact ⟨_, _, _, _, _, rfl, rfl⟩

/-- The call of each state that has one (42 R180). -/
theorem portCall_eq_some {s : State} {c : Call} (h : s.portCall = some c) :
    (s.st = .sClosing ∧ c = .close s.handle) ∨
    (s.st = .sOpen ∧ ∃ n baud databits parity stopbits,
      s.cmd = some (.connect n baud databits parity stopbits) ∧
      c = .openPort n baud databits parity stopbits) ∨
    (s.st = .sDrain ∧ c = .read s.handle Config.drainBytes s.tDrain) ∨
    (s.st = .sSyncFlush ∧ c = .flush s.handle) ∨
    (s.st = .sTx ∧ c = .write s.handle s.tx) ∨
    (s.st = .sRx ∧ c = .read s.handle (BitVec.ofNat 9 (wanted s)) s.rem) ∨
    (s.st = .sErrFlush ∧ c = .flush s.handle) := by
  unfold State.portCall at h
  split at h
  case h_2 hst => exact .inr (.inl ⟨hst, openCall_eq_some h⟩)
  all_goals simp_all

/-- A read is the one of the drain or of the response (42 R187, R196). -/
theorem portCall_read {s : State} {h : Byte} {m : BitVec 9} {limit : Word}
    (hp : s.portCall = some (.read h m limit)) :
    (s.st = .sDrain ∧ h = s.handle ∧ m = Config.drainBytes ∧ limit = s.tDrain) ∨
    (s.st = .sRx ∧ h = s.handle ∧ m = BitVec.ofNat 9 (wanted s) ∧ limit = s.rem) := by
  simpa using portCall_eq_some hp

/-- A write is the one of the request in `TXBUF` (42 R194). -/
theorem portCall_write {s : State} {h : Byte} {b : List Byte} (hp : s.portCall = some (.write h b)) :
    s.st = .sTx ∧ h = s.handle ∧ b = s.tx := by
  simpa using portCall_eq_some hp

/-- In `S_TX` the command in execution is a register command, with a count of registers (42 R180). -/
theorem Inv.register_of_sTx {s : State} (hs : Inv s) (hst : s.st = .sTx) :
    ∃ i n, s.cmd = some i ∧ Instr.isRegister i = true ∧ i.count? = some n := by
  have hc := hs.command
  simp only [State.commandAgrees, hst, Bool.and_eq_true, State.cmdIs, Option.any_eq_true] at hc
  obtain ⟨⟨⟨i, hi, hreg⟩, -⟩, -⟩ := hc
  cases i <;> cases hreg <;> exact ⟨_, _, hi, rfl, rfl⟩

/-- In `S_RX` the buffer is short of its target, which is within the buffer (42 R196, R197). -/
theorem Inv.wanted_bounds {s : State} (hs : Inv s) (hst : s.st = .sRx) : 1 ≤ wanted s ∧ wanted s ≤ 256 := by
  obtain ⟨hlt, hle⟩ := hs.receive.1 hst
  have hmax : Config.maxFrame = 256 := rfl
  unfold wanted
  omega

/-- Every read asks for 1 to 256 bytes (20 R67, 42 R187, R196). -/
theorem Inv.read_bounds {s : State} (hs : Inv s) {h : Byte} {m : BitVec 9} {limit : Word}
    (hp : s.portCall = some (.read h m limit)) : 1 ≤ m.toNat ∧ m.toNat ≤ 256 := by
  rcases portCall_read hp with ⟨-, -, rfl, -⟩ | ⟨hst, -, rfl, -⟩
  · decide
  · have hw := hs.wanted_bounds hst
    rw [BitVec.toNat_ofNat, Nat.mod_eq_of_lt (by omega)]
    exact hw

/-- Every write has the length of a request: 8, or `9 + 2k` with `k` at most 123 (41 R152). -/
theorem Inv.write_length {s : State} (hs : Inv s) {h : Byte} {b : List Byte}
    (hp : s.portCall = some (.write h b)) : b.length = 8 ∨ ∃ k, k ≤ 123 ∧ b.length = 9 + 2 * k := by
  obtain ⟨hst, -, rfl⟩ := portCall_write hp
  have hlen : s.tx.length = s.txLen.toNat := Memory.length_readFrom _ _ _
  obtain ⟨i, n, hi, -, hn⟩ := hs.register_of_sTx hst
  obtain ⟨hread, hwrite⟩ := hs.request hst i n hi hn
  cases hk : Instr.isRead i with
  | true => exact .inl (by rw [hlen, hread hk]; rfl)
  | false =>
    obtain ⟨hle, htx⟩ := hwrite hk
    exact .inr ⟨n, hle, hlen.trans htx⟩

/-- An event as 42 R196, 20 R67, R68, 41 R152 and 60 R260 bound it: a read's `maxBytes`, a write's length, a
response's fields. -/
def Event.InBounds (e : Event) : Prop :=
  (∀ h m limit, e = .call (.read h m limit) → 1 ≤ m.toNat ∧ m.toNat ≤ 256) ∧
  (∀ h b, e = .call (.write h b) → b.length = 8 ∨ ∃ k, k ≤ 123 ∧ b.length = 9 + 2 * k) ∧
  (∀ r, e = .rsp r → r.legal = true)

/-- What a state with the invariant logs is within its bounds. -/
theorem Inv.inBounds_of_logs {s : State} (hs : Inv s) {e : Event} (he : s.Logs e) : e.InBounds := by
  refine ⟨?_, ?_, ?_⟩
  · rintro h m limit rfl
    exact hs.read_bounds he.2
  · rintro h b rfl
    exact hs.write_length he.2
  · rintro r rfl
    exact (hs.response r he).1

/-- Settles O54: a step logs one event at most, which is within its bounds. -/
theorem portCallsKeepTheirBounds : Obligations.PortCallsKeepTheirBounds := by
  refine ⟨fun s t h => ?_, fun s t hs h => ?_, rfl⟩
  · exact (step_logsAtMostOne h).imp_right fun ⟨e, he, _⟩ => ⟨e, he⟩
  · rcases step_logsAtMostOne h with h | ⟨e, ht, he⟩
    · exact ⟨[], by simp [h], by simp⟩
    · refine ⟨[e], ht, fun e' he' => ?_⟩
      obtain rfl := List.mem_singleton.1 he'
      exact hs.inBounds_of_logs he

end Sys2Proof.Machine
end

section
/-! PROOFS. What a step of a ready engine does (00_scope.md R13, 42_bus_session.md R181). -/

namespace Sys2Proof.Machine

/-- A ready engine sees no reset (70 R300). -/
theorem rst_of_cmdReady {s : State} (h : s.cmdReady = true) : s.rst = false := by
  simp only [State.cmdReady, Bool.and_eq_true, Bool.not_eq_true'] at h
  exact h.2

/-- With no command presented a ready engine stays as it is (60 R286). -/
theorem step_ready_nil {s : State} (h : s.cmdReady = true) (hc : s.cmdIn = []) : step s = .next s := by
  simp [step, presented, rst_of_cmdReady h, h, hc]

/-- A ready engine takes the presented record and runs its command (42 R181). -/
theorem step_ready_cons {s : State} (h : s.cmdReady = true) {r : CmdRecord} {rest : List CmdRecord} {i : Instr}
    (hc : s.cmdIn = r :: rest) (hd : decodeRecord r = .ok i) : step s = exec i { s with cmdIn := rest } := by
  simp [step, presented, consumeRecord, rst_of_cmdReady h, h, hc, hd]

/-- Settles O7: with nothing presented, and with a record presented. -/
theorem stepRunsTheDecodedCommand : Obligations.StepRunsTheDecodedCommand :=
  fun _ hr => ⟨step_ready_nil hr, fun _ _ _ hc hd => step_ready_cons hr hc hd⟩

end Sys2Proof.Machine
end

section
/-! PROOFS. The invariant of the engine (10_state.md R24): it holds after reset, and it does not keep itself. Of a
`CONNECT` that has still to issue its `T.open` it says nothing about the beats in the history; from the issue on it
asks that the history shows as many as the engine counts. -/

namespace Sys2Proof.Machine

/-- An empty buffer is in canonical form. -/
theorem Memory.nil_wf {w : Nat} : Memory.wf (w := w) [] := ⟨.nil, nofun⟩

/-- Settles O47: after reset the engine is disconnected and at rest, and its buffers are empty. -/
theorem invariantHoldsAtReset : Obligations.InvariantHoldsAtReset where
  conn := rfl
  command := rfl
  opcode := nofun
  txFits := Nat.zero_le _
  request := nofun
  rxFits := Nat.zero_le _
  vFits := Nat.zero_le _
  receive := ⟨nofun, nofun⟩
  expected := nofun
  payload := ⟨fun _ => ⟨rfl, rfl⟩, nofun⟩
  call := ⟨nofun, nofun⟩
  failure := nofun
  response := nofun
  values := fun h => absurd rfl h
  txMem := ⟨Memory.nil_wf, nofun⟩
  rxMem := ⟨Memory.nil_wf, nofun⟩
  vMem := ⟨Memory.nil_wf, nofun⟩

/-- A `CONNECT` whose `T.open` is offered and not issued, after a history that shows a byte of its name already
forwarded. No run of the engine leads here (42_bus_session.md R182), but no clause of the invariant excludes it. -/
def byteBeforeOpen : State :=
  { State.reset with
    st := .sOpen, op := 0x80#8, cmd := some (.connect 1 0 0 0 0), callWait := true
    trace := [.cmd (.connect 1 0 0 0 0), .forward 0 0] }

/-- The invariant holds there: it compares the count of beats with the history only while a transfer is in
progress. What it says of the reset state's buffers, outputs and exchange it says here. -/
theorem inv_byteBeforeOpen : Inv byteBeforeOpen :=
  { (show Inv State.reset from invariantHoldsAtReset) with
    conn := rfl
    command := rfl
    opcode := by rintro i ⟨⟩; exact ⟨by decide, rfl⟩
    request := nofun
    receive := ⟨nofun, nofun⟩
    expected := nofun
    payload := ⟨fun _ => ⟨rfl, rfl⟩, nofun⟩
    call := ⟨fun _ => rfl, nofun⟩
    failure := nofun
    response := nofun
    values := fun h => absurd rfl h }

/-- Its next step issues `T.open`, with one byte of the name to follow. -/
theorem step_byteBeforeOpen :
    step byteBeforeOpen = .next (issue (.openPort 1 0 0 0 0) byteBeforeOpen) := rfl

/-- With the transfer of the name begun the engine has counted no beat, and the history shows one. -/
theorem not_inv_issue_byteBeforeOpen : ¬ Inv (issue (.openPort 1 0 0 0 0) byteBeforeOpen) := by
  intro h
  obtain ⟨hcount, -⟩ := h.payload.2 rfl
  exact absurd hcount (by decide)

/-- Refutes O48: in a state with the invariant that has still to issue `T.open`, the history may show a byte of the
name; the issue then begins a transfer whose count of beats, 0, is not the history's. -/
theorem not_stepKeepsTheInvariant : ¬ Obligations.StepKeepsTheInvariant := fun h =>
  not_inv_issue_byteBeforeOpen (h _ _ inv_byteBeforeOpen step_byteBeforeOpen)

end Sys2Proof.Machine
end

section
/-! PROOFS. Which persistent registers a command writes (10_state.md R25 to R33). The events of an exchange keep the
Connection and the timers, those of a `CONNECT` keep the timers, a command that only computes keeps everything; the
invariant says which command an event belongs to. -/

namespace Sys2Proof.Machine

/-! ## The registers by who writes them -/

/-- What only `CONNECT` writes: the handle and the line settings of the Connection (10 R26, R27). -/
def State.line (s : State) : Byte × Word × Byte × Byte × Byte :=
  (s.handle, s.baud, s.databits, s.parity, s.stopbits)

/-- What only `SET_TIMING` writes (10 R31 to R33). -/
def State.timers (s : State) : Word × Word × Word := (s.tSettle, s.tResp, s.tDrain)

/-- What no register command writes: the Connection and the timers. -/
def State.link (s : State) : Bool × (Byte × Word × Byte × Byte × Byte) × (Word × Word × Word) :=
  (s.connOpen, s.line, s.timers)

theorem writesOnly_iff {i : Instr} {s t : State} :
    WritesOnly i s t ↔
      (Instr.isConnection i = false → t.connOpen = s.connOpen) ∧
      (Instr.isConnect i = false → t.line = s.line) ∧
      ((∀ settle resp drain, i ≠ .setTiming settle resp drain) → t.timers = s.timers) ∧
      (Instr.isRegister i = false → Instr.isConnect i = false → t.slave = s.slave) ∧
      (Instr.isRegister i = false → Instr.isConnection i = false → t.st = s.st) := by
  simp [WritesOnly, State.line, State.timers]

theorem link_eq_iff {s t : State} :
    t.link = s.link ↔ t.connOpen = s.connOpen ∧ t.line = s.line ∧ t.timers = s.timers := by
  simp [State.link]

/-- A step that writes no persistent register is any command's. -/
theorem WritesOnly.of_untouched {i : Instr} {s t : State} (hl : t.link = s.link) (hv : t.slave = s.slave)
    (hst : t.st = s.st) : WritesOnly i s t := by
  obtain ⟨hc, ha, ht⟩ := link_eq_iff.1 hl
  exact writesOnly_iff.2 ⟨fun _ => hc, fun _ => ha, fun _ => ht, fun _ _ => hv, fun _ _ => hst⟩

/-- A register command keeps the Connection and the timers. -/
theorem WritesOnly.of_register {i : Instr} {s t : State} (hi : Instr.isRegister i = true)
    (hl : t.link = s.link) : WritesOnly i s t := by
  obtain ⟨hc, ha, ht⟩ := link_eq_iff.1 hl
  exact writesOnly_iff.2 ⟨fun _ => hc, fun _ => ha, fun _ => ht, fun h => by simp [hi] at h,
    fun h => by simp [hi] at h⟩

/-- `DISCONNECT` keeps all but `CONN_OPEN` and `ST`; so does `CONNECT` while it closes the old Connection. -/
theorem WritesOnly.of_connection {i : Instr} {s t : State} (hi : Instr.isConnection i = true)
    (ha : t.line = s.line) (ht : t.timers = s.timers) (hv : t.slave = s.slave) :
    WritesOnly i s t :=
  writesOnly_iff.2 ⟨fun h => by simp [hi] at h, fun _ => ha, fun _ => ht, fun _ _ => hv,
    fun _ h => by simp [hi] at h⟩

/-- `CONNECT` keeps the timers. -/
theorem WritesOnly.of_connect {i : Instr} {s t : State} (hi : Instr.isConnect i = true)
    (ht : t.timers = s.timers) : WritesOnly i s t := by
  have hc : Instr.isConnection i = true := by
    cases i with
    | connect => rfl
    | _ => cases hi
  exact writesOnly_iff.2 ⟨fun h => by simp [hc] at h, fun h => by simp [hi] at h, fun _ => ht,
    fun _ h => by simp [hi] at h, fun _ h => by simp [hc] at h⟩

/-! ## The command an event belongs to (42 R180) -/

theorem Inv.isConnection_of_sClosing {s : State} (hs : Inv s) {i : Instr} (hc : s.cmd = some i)
    (hst : s.st = .sClosing) : Instr.isConnection i = true := by
  have h := hs.command
  simp only [State.commandAgrees, hst, State.cmdIs, hc, Option.any_some, Bool.and_eq_true] at h
  exact h.1.1

theorem Inv.isConnect_of_st {s : State} (hs : Inv s) {i : Instr} (hc : s.cmd = some i)
    (hst : s.st = .sOpen ∨ s.st = .sDrain ∨ s.st = .sSettle ∨ s.st = .sSyncFlush) :
    Instr.isConnect i = true := by
  have h := hs.command
  rcases hst with hst | hst | hst | hst <;>
    simp_all [State.commandAgrees, State.cmdIs]

theorem Inv.isRegister_of_st {s : State} (hs : Inv s) {i : Instr} (hc : s.cmd = some i)
    (hst : s.st = .sTx ∨ s.st = .sRx ∨ s.st = .sCheck ∨ s.st = .sErrFlush) :
    Instr.isRegister i = true := by
  have h := hs.command
  rcases hst with hst | hst | hst | hst <;>
    simp_all [State.commandAgrees, State.cmdIs]

/-- No payload transfer is in progress in an exchange. -/
theorem Inv.inExchange_of_plWait {s : State} (hs : Inv s) (hp : s.plWait = true) :
    s.st.inExchange = false := by
  have h := hs.command
  cases hst : s.st <;> simp_all [State.commandAgrees, SessionState.inExchange]

/-- What the use of an answer keeps, its taking keeps, where it does not see the answers to come. -/
theorem takeAnswer_keeps {α : Type} {g : State → α} (hg : ∀ s rest, g { s with answers := rest } = g s)
    {f : Answer → State → Progress} (hf : ∀ a s t, f a s = .moved t → g t = g s) {s t : State}
    (h : takeAnswer f s = .moved t) : g t = g s := by
  obtain ⟨a, rest, -, h⟩ := takeAnswer_moved h
  exact (hf _ _ _ h).trans (hg s rest)

/-! ## What keeps the Connection and the timers -/

section
variable (s : State)

@[simp] theorem raise_link (e : Status) (c : Byte) : (raise e c s).link = s.link := by
  unfold raise
  split <;> rfl

@[simp] theorem checkCrc_link (b : List Byte) : (checkCrc b s).link = s.link := by
  unfold checkCrc
  split <;> rfl

theorem afterBytes_link : (afterBytes s).link = s.link := by
  rcases afterBytes_cases s with ⟨n, -, -, h⟩ | ⟨n, -, -, -, h⟩ | ⟨-, -, h⟩ | ⟨-, -, h⟩ <;> rw [h]
  · exact raise_link _ _ _
  · rfl
  · exact raise_link _ _ _
  · rfl

theorem finishValues_link (vs : List Half) : (finishValues vs s).link = s.link := by
  unfold finishValues
  split
  · rfl
  · exact raise_link _ _ _

theorem finishEcho_link (count : Half) : (finishEcho count s).link = s.link := by
  unfold finishEcho
  split
  · rfl
  · exact raise_link _ _ _

end

theorem loadRequest_link {frame : List Byte} {s t : State} (h : loadRequest frame s = .moved t) :
    t.link = s.link := by
  obtain ⟨-, rfl⟩ := loadRequest_moved h
  rfl

theorem beginExchange_link {slave : Byte} {s t : State} (h : beginExchange slave s = .moved t) :
    t.link = s.link := by
  rcases beginExchange_moved h with ⟨-, rfl⟩ | ⟨-, rfl⟩
  · rfl
  · exact raise_link _ _ _

theorem readRequest_link {k : ReadKind} {slave : Byte} {start : Half} {n : Nat} {s t : State}
    (h : readRequest k slave start n s = .moved t) : t.link = s.link := by
  rcases readRequest_moved h with ⟨-, rfl⟩ | ⟨-, u, hu, ht⟩
  · exact raise_link _ _ _
  · exact (beginExchange_link ht).trans (loadRequest_link hu :)

theorem writeRequest_link {slave : Byte} {start : Half} {n : Nat} {good : Bool} {s t : State}
    (h : writeRequest slave start n good s = .moved t) : t.link = s.link := by
  rcases writeRequest_moved h with ⟨-, rfl⟩ | ⟨-, -, rfl⟩ | ⟨-, -, u, hu, ht⟩
  · exact raise_link _ _ _
  · exact raise_link _ _ _
  · exact (beginExchange_link ht).trans (loadRequest_link hu :)

theorem writeAnswer_link {a : Answer} {s t : State} (h : writeAnswer a s = .moved t) :
    t.link = s.link := by
  rcases writeAnswer_moved h with ⟨-, -, rfl⟩ | ⟨-, rfl⟩
  · rfl
  · exact raise_link _ _ _

theorem readAnswer_link {a : Answer} {s t : State} (h : readAnswer a s = .moved t) :
    t.link = s.link := by
  obtain ⟨-, -, -, ⟨-, rfl⟩ | ⟨-, u, hu, rfl⟩⟩ := readAnswer_moved h
  · exact raise_link _ _ _
  · obtain ⟨-, rfl⟩ := appendRx_moved hu
    exact afterBytes_link _

theorem checkStep_link {s t : State} (h : checkStep s = .moved t) : t.link = s.link := by
  obtain ⟨-, ⟨vs, u, -, hu, rfl⟩ | ⟨addr, count, -, rfl⟩ | ⟨e, -, rfl⟩⟩ := checkStep_moved h
  · obtain ⟨-, rfl⟩ := loadValues_moved hu
    exact (finishValues_link _ _).trans (checkCrc_link _ _)
  · exact (finishEcho_link _ _).trans (checkCrc_link _ _)
  · exact (raise_link _ _ _).trans (checkCrc_link _ _)

theorem failReturn_link {a : Answer} {s t : State} (h : failReturn a s = .moved t) :
    t.link = s.link := by
  cases h
  rfl

/-! ## What keeps the timers -/

@[simp] theorem raise_timers (s : State) (e : Status) (c : Byte) : (raise e c s).timers = s.timers :=
  (link_eq_iff.1 (raise_link s e c)).2.2

@[simp] theorem latchAttributes_timers (s : State) (i : Option Instr) :
    (latchAttributes i s).timers = s.timers := by
  unfold latchAttributes
  split <;> rfl

theorem openAnswer_timers {a : Answer} {s t : State} (h : openAnswer a s = .moved t) :
    t.timers = s.timers := by
  rcases openAnswer_moved h with ⟨-, rfl⟩ | ⟨-, rfl⟩
  · exact latchAttributes_timers _ _
  · exact raise_timers _ _ _

theorem drainAnswer_timers {a : Answer} {s t : State} (h : drainAnswer a s = .moved t) :
    t.timers = s.timers := by
  obtain ⟨-, -, ⟨-, rfl⟩ | ⟨-, rfl⟩⟩ := drainAnswer_moved h <;> rfl

theorem settleStep_timers {s t : State} (h : settleStep s = .moved t) : t.timers = s.timers := by
  rcases settleStep_moved h with ⟨-, rfl⟩ | ⟨-, -, rfl⟩ <;> rfl

theorem syncFlushAnswer_timers {a : Answer} {s t : State} (h : syncFlushAnswer a s = .moved t) :
    t.timers = s.timers := by
  cases h
  rfl

/-! ## Every part of a command -/

/-- What a command does first, once accepted in a ready engine. -/
theorem first_writesOnly {i : Instr} {s t : State} (h : Instr.first i (accept i s) = .moved t) :
    WritesOnly i s t := by
  cases i with
  | readHolding slave start n => exact .of_register rfl (readRequest_link h :)
  | readInput slave start n => exact .of_register rfl (readRequest_link h :)
  | writeHolding slave start n => cases h; exact .of_untouched rfl rfl rfl
  | connect n baud databits parity stopbits => cases h; exact .of_connect rfl (by split <;> rfl)
  | disconnect => cases h; split <;> exact .of_connection rfl rfl rfl rfl
  | setTiming settle resp drain =>
    cases h
    exact writesOnly_iff.2 ⟨fun _ => rfl, fun _ => rfl, fun h => absurd rfl (h _ _ _), fun _ _ => rfl,
      fun _ _ => rfl⟩
  | crc16 n => cases h; exact .of_untouched rfl rfl rfl
  | crcCheck n => cases h; exact .of_untouched rfl rfl rfl

/-- The end of a `CRC_CHECK` outside an exchange writes no persistent register. -/
theorem crcCheckAnswer_untouched {n : Nat} {good : Bool} {s t : State} (hx : s.st.inExchange = false)
    (h : crcCheckAnswer n good s = .moved t) : t.link = s.link ∧ t.slave = s.slave ∧ t.st = s.st := by
  unfold crcCheckAnswer at h
  simp only [raise_outside _ _ hx] at h
  split at h
  · cases h; exact ⟨rfl, rfl, rfl⟩
  · split at h <;> cases h <;> exact ⟨rfl, rfl, rfl⟩

/-- A beat taken writes no persistent register; what follows the last one decides. -/
theorem takePayload_writesOnly {i : Instr} {n : Nat} {f : Bool → State → Progress} {s t : State}
    (hf : f s.plGood { s with plWait := false, plTaken := 0, plGood := true } = .moved t → WritesOnly i s t)
    (h : takePayload i n f s = .moved t) : WritesOnly i s t := by
  rcases takePayload_moved h with ⟨-, beat, rest, -, rfl⟩ | ⟨-, h⟩
  · exact .of_untouched rfl rfl rfl
  · exact hf h

/-- A payload transfer writes no persistent register until the request of a `WRITE_HOLDING` begins its exchange. -/
theorem payloadStep_writesOnly {i : Instr} {s t : State} (hs : Inv s) (hc : s.cmd = some i)
    (hp : s.plWait = true) (h : payloadStep s = .moved t) : WritesOnly i s t := by
  obtain ⟨j, n, hj, -, h⟩ := payloadStep_moved h
  obtain rfl : i = j := Option.some.inj (hc.symm.trans hj)
  rcases h with ⟨slave, start, rfl, h⟩ | ⟨baud, databits, parity, stopbits, rfl, h⟩ | ⟨rfl, h⟩ | ⟨rfl, h⟩
  · exact takePayload_writesOnly (fun h => .of_register rfl (writeRequest_link h :)) h
  · obtain ⟨-, beat, rest, -, rfl⟩ := forwardStep_moved h
    exact .of_untouched rfl rfl rfl
  · exact takePayload_writesOnly (fun h => by cases h; exact .of_untouched rfl rfl rfl) h
  · refine takePayload_writesOnly (fun h => ?_) h
    obtain ⟨hl, hv, hst⟩ :=
      crcCheckAnswer_untouched (s := { s with plWait := false, plTaken := 0, plGood := true })
        (hs.inExchange_of_plWait hp) h
    exact .of_untouched hl hv hst

/-- The answer to a close writes `CONN_OPEN` and `ST`. -/
theorem closeAnswer_writesOnly {i : Instr} (hi : Instr.isConnection i = true) {a : Answer} {s t : State}
    (h : closeAnswer a s = .moved t) : WritesOnly i s t := by
  rcases closeAnswer_moved h with ⟨-, rfl⟩ | ⟨-, rfl⟩ <;> exact .of_connection hi rfl rfl rfl

/-- An event of the session machine writes the registers of the command it belongs to. -/
theorem sessionStep_writesOnly {i : Instr} {s t : State} (hs : Inv s) (hc : s.cmd = some i)
    (h : sessionStep s = .moved t) : WritesOnly i s t := by
  rcases sessionStep_moved h with ⟨hst, h⟩ | ⟨hst, h⟩ | ⟨hst, h⟩ | ⟨hst, h⟩ | ⟨hst, h⟩ | ⟨hst, h⟩ | ⟨hst, h⟩ |
    ⟨hst, h⟩ | ⟨hst, h⟩
  · obtain ⟨a, rest, -, h⟩ := takeAnswer_moved h
    exact (closeAnswer_writesOnly (hs.isConnection_of_sClosing hc hst) h :)
  · exact .of_connect (hs.isConnect_of_st hc (.inl hst))
      (takeAnswer_keeps (fun _ _ => rfl) (fun _ _ _ => openAnswer_timers) h)
  · exact .of_connect (hs.isConnect_of_st hc (.inr (.inl hst)))
      (takeAnswer_keeps (fun _ _ => rfl) (fun _ _ _ => drainAnswer_timers) h)
  · exact .of_connect (hs.isConnect_of_st hc (.inr (.inr (.inl hst)))) (settleStep_timers h)
  · exact .of_connect (hs.isConnect_of_st hc (.inr (.inr (.inr hst))))
      (takeAnswer_keeps (fun _ _ => rfl) (fun _ _ _ => syncFlushAnswer_timers) h)
  · exact .of_register (hs.isRegister_of_st hc (.inl hst))
      (takeAnswer_keeps (fun _ _ => rfl) (fun _ _ _ => writeAnswer_link) h)
  · exact .of_register (hs.isRegister_of_st hc (.inr (.inl hst)))
      (takeAnswer_keeps (fun _ _ => rfl) (fun _ _ _ => readAnswer_link) h)
  · exact .of_register (hs.isRegister_of_st hc (.inr (.inr (.inl hst)))) (checkStep_link h)
  · exact .of_register (hs.isRegister_of_st hc (.inr (.inr (.inr hst))))
      (takeAnswer_keeps (fun _ _ => rfl) (fun _ _ _ => failReturn_link) h)

/-- Every transition of a command in execution writes that command's registers only. -/
theorem transition_writesOnly {i : Instr} {s t : State} (hs : Inv s) (hc : s.cmd = some i)
    (h : transition s = .moved t) : WritesOnly i s t := by
  obtain ⟨-, ⟨r, -, -, rfl⟩ | ⟨v, rest, -, -, -, rfl⟩ | ⟨-, -, hp, h⟩ | ⟨-, -, -, -, h⟩ | ⟨-, -, -, -, h⟩⟩ :=
    transition_moved h
  · exact .of_untouched rfl rfl rfl
  · exact .of_untouched rfl rfl rfl
  · exact payloadStep_writesOnly hs hc hp h
  · obtain ⟨-, c, -, rfl⟩ := callStep_moved h
    exact .of_untouched rfl rfl rfl
  · exact sessionStep_writesOnly hs hc h

/-- An engine with a command in execution is not ready for another (30 R90). -/
theorem cmdReady_of_cmd {s : State} {i : Instr} (h : s.cmd = some i) : s.cmdReady = false := by
  simp [State.cmdReady, State.busy, h]

/-- Settles O56: at acceptance by the command's first act, later by the transition the command makes. -/
theorem commandsWriteOnlyTheirRegisters : Obligations.CommandsWriteOnlyTheirRegisters := by
  refine ⟨fun i s t h => ?_, fun i s t hs hr hc h => ?_⟩
  · rcases exec_next h with ⟨-, rfl⟩ | ⟨-, h⟩
    · exact .of_untouched rfl rfl rfl
    · exact first_writesOnly h
  · rw [step_busy hr (cmdReady_of_cmd hc)] at h
    cases hp : transition s with
    | moved u => rw [hp] at h; cases h; exact transition_writesOnly hs hc hp
    | blocked => rw [hp] at h; cases h; exact .of_untouched rfl rfl rfl
    | fault e => rw [hp] at h; cases h
    | refused e => rw [hp] at h; cases h

end Sys2Proof.Machine
end

section
/-! PROOFS. Scratch state carries nothing between commands (10_state.md R20, R40): a simulation between two engines
that differ in scratch state only. What they must agree on besides is the scratch that the command in execution has
written and has still to read: what each state of `ST` has pending, and what the payload transfer has made of its
beats. Every operation keeps that agreement, and at rest it asks nothing. -/

namespace Sys2Proof.Machine

/-! ## The relation -/

/-- The three buffers are in canonical form (10 R41). -/
structure CanonicalBuffers (txbuf rxbuf : Memory 8) (vbuf : Memory 16) : Prop where
  tx : txbuf.wf
  rx : rxbuf.wf
  v : vbuf.wf

/-- The scratch that is still to be read from state `x` of `ST` on agrees (42 R180). -/
def LiveAlike (x : SessionState) (s s' : State) : Prop :=
  match x with
  | .sClosing => s.op = s'.op
  | .sSettle => s.rem = s'.rem
  | .sTx => s.txLen = s'.txLen ∧ s.tx = s'.tx ∧ s.expFc = s'.expFc ∧ s.reqCount = s'.reqCount
  | .sRx => s.rxLen = s'.rxLen ∧ s.rx = s'.rx ∧ s.rem = s'.rem ∧ s.expFc = s'.expFc ∧ s.reqCount = s'.reqCount
  | .sCheck => s.rxLen = s'.rxLen ∧ s.rx = s'.rx ∧ s.expFc = s'.expFc ∧ s.reqCount = s'.reqCount
  | .sErrFlush => s.err = s'.err ∧ s.exc = s'.exc
  | .sDisc => True
  | .sOpen => True
  | .sDrain => True
  | .sSyncFlush => True
  | .sIdle => True

/-- The scratch in which command `i` keeps the beats it has taken agrees (30 R92). -/
def BeatsAlike (i : Instr) (s s' : State) : Prop :=
  match i with
  | .crc16 _ => s.crc = s'.crc
  | .crcCheck n => 2 ≤ n → s.crc = s'.crc
  | .writeHolding _ _ n => n ≤ Config.maxWriteCount → s.plGood = true →
    s.vbuf.readFrom 0 s.plTaken = s'.vbuf.readFrom 0 s.plTaken
  | .readHolding _ _ _ => True
  | .readInput _ _ _ => True
  | .connect _ _ _ _ _ => True
  | .disconnect => True
  | .setTiming _ _ _ => True

/-- Two engines that differ in scratch state only, and not in the scratch that is still to be read. -/
structure Alike (s s' : State) : Prop where
  same : s.withoutScratch = s'.withoutScratch
  canonical : CanonicalBuffers s.txbuf s.rxbuf s.vbuf
  canonical' : CanonicalBuffers s'.txbuf s'.rxbuf s'.vbuf
  live : LiveAlike s.st s s'
  beats : s.plWait = true → ∀ i, s.cmd = some i → BeatsAlike i s s'

/-- Two transitions with the same effect: alike states, or the same stop. -/
inductive Progress.Alike : Progress → Progress → Prop where
  | moved {s s' : State} (h : Machine.Alike s s') : Progress.Alike (.moved s) (.moved s')
  | blocked : Progress.Alike .blocked .blocked
  | fault (f : Fault) : Progress.Alike (.fault f) (.fault f)
  | refused (r : Refusal) : Progress.Alike (.refused r) (.refused r)

/-- Two outcomes with the same effect. -/
inductive OutcomesAlike : Host.Outcome State Fault Refusal → Host.Outcome State Fault Refusal → Prop where
  | next {s s' : State} (h : Alike s s') : OutcomesAlike (.next s) (.next s')
  | fault (f : Fault) : OutcomesAlike (.fault f) (.fault f)
  | refused (r : Refusal) : OutcomesAlike (.refused r) (.refused r)

/-- In a rest state no scratch is still to be read. -/
theorem liveAlike_of_isRest {x : SessionState} (h : x.isRest = true) (s s' : State) : LiveAlike x s s' := by
  cases x <;> trivial

section
variable {s s' : State}

/-- The agreement of a known state of `ST` is that of the state the engine is in. -/
theorem liveAlike_of_st {x : SessionState} {t t' : State} (hst : s.st = x) (h : LiveAlike x t t') :
    LiveAlike s.st t t' := hst ▸ h

/-- No state of `ST` has `CRC` or `VBUF` still to read: the payload transfer and the check of a frame use them up in
the step that needs them. -/
theorem LiveAlike.overwrite {x : SessionState} (h : LiveAlike x s s') (c c' : Half) (m m' : Memory 16)
    (v v' : BitVec 8) :
    LiveAlike x { s with crc := c, vbuf := m, vLen := v } { s' with crc := c', vbuf := m', vLen := v' } := by
  cases x <;> exact h

/-- With no payload transfer in progress nothing is kept of its beats. -/
theorem beatsAlike_of_not_plWait (hp : s.plWait = false) :
    s.plWait = true → ∀ i, s.cmd = some i → BeatsAlike i s s' :=
  fun h => absurd (hp.symm.trans h) (by decide)

/-- What reads no scratch reads the same. -/
theorem Alike.reads {α : Type} (hs : Alike s s') (g : State → α)
    (hg : ∀ u, g u.withoutScratch = g u := by intro u; rfl) : g s = g s' := by
  rw [← hg s, hs.same, hg]

/-- The scratch still to be read in the state the engine is in. -/
theorem Alike.live_of {x : SessionState} (hs : Alike s s') (hst : s.st = x) : LiveAlike x s s' :=
  hst ▸ hs.live

theorem Progress.Alike.outcome {p p' : Progress} (h : Progress.Alike p p') (hs : Machine.Alike s s') :
    OutcomesAlike (p.outcome s) (p'.outcome s') := by
  cases h with
  | moved h => exact .next h
  | blocked => exact .next hs
  | fault f => exact .fault f
  | refused r => exact .refused r

/-- One after the other, alike where both parts are. -/
theorem Progress.Alike.andThen {p p' : Progress} {f f' : State → Progress} (h : Progress.Alike p p')
    (hf : ∀ u u', p = .moved u → p' = .moved u' → Machine.Alike u u' → Progress.Alike (f u) (f' u')) :
    Progress.Alike (p.andThen f) (p'.andThen f') := by
  cases h with
  | moved h => exact hf _ _ rfl rfl h
  | blocked => exact .blocked
  | fault e => exact .fault e
  | refused r => exact .refused r

theorem Progress.Alike.checkedRead {p p' : Progress} (h : Progress.Alike p p') {m m' : Nat} (hm : m = m')
    (a : Answer) : Progress.Alike (checkedRead m a p) (checkedRead m' a p') := by
  subst hm
  unfold Machine.checkedRead
  split
  · exact .refused _
  · split
    · exact .refused _
    · exact h

/-- Two tests with one answer, and what follows each answer related. -/
theorem ite_rel {α : Type} {R : α → α → Prop} {P P' : Prop} [Decidable P] [Decidable P'] {a a' b b' : α}
    (h : P ↔ P') (ht : P → R a a') (hf : ¬ P → R b b') : R (if P then a else b) (if P' then a' else b') := by
  by_cases hp : P
  · rw [if_pos hp, if_pos (h.1 hp)]
    exact ht hp
  · rw [if_neg hp, if_neg fun hp' => hp (h.2 hp')]
    exact hf hp

/-! ## The operations -/

theorem Alike.log (hs : Alike s s') {e e' : Event} (he : e = e') : Alike (log e s) (log e' s') := by
  subst he
  exact ⟨hs.reads fun u => (Machine.log e u).withoutScratch, hs.canonical, hs.canonical', hs.live, hs.beats⟩

theorem Alike.offerCall (hs : Alike s s') : Alike (offerCall s) (offerCall s') :=
  ⟨hs.reads fun u => (Machine.offerCall u).withoutScratch, hs.canonical, hs.canonical', hs.live, hs.beats⟩

theorem Alike.respond (hs : Alike s s') {c c' x x' : Byte} {n n' : Half} {vs vs' : List Half} (hc : c = c')
    (hx : x = x') (hn : n = n') (hv : vs = vs') : Alike (respond c x n vs s) (respond c' x' n' vs' s') := by
  subst hc hx hn hv
  exact ⟨hs.reads fun u => (Machine.respond c x n vs u).withoutScratch, hs.canonical, hs.canonical', hs.live,
    hs.beats⟩

theorem Alike.consumeRecord (hs : Alike s s') : Alike (consumeRecord s) (consumeRecord s') :=
  ⟨hs.reads fun u => (Machine.consumeRecord u).withoutScratch, hs.canonical, hs.canonical', hs.live, hs.beats⟩

theorem Alike.withAnswers (hs : Alike s s') (rest : List Answer) :
    Alike { s with answers := rest } { s' with answers := rest } :=
  ⟨hs.reads fun u => State.withoutScratch { u with answers := rest }, hs.canonical, hs.canonical', hs.live,
    hs.beats⟩

/-- The engine goes to state `x` of `ST` with what is still to be read there. -/
theorem Alike.enter (hs : Alike s s') (x : SessionState) (h : LiveAlike x s s') :
    Alike { s with st := x } { s' with st := x } :=
  ⟨hs.reads fun u => State.withoutScratch { u with st := x }, hs.canonical, hs.canonical', h, hs.beats⟩

/-- A failure goes the same way with the same code (60 R277). -/
theorem Alike.raise (hs : Alike s s') (e : Status) (c : Byte) : Alike (raise e c s) (raise e c s') := by
  refine ite_rel (by rw [hs.reads (·.st)]) (fun _ => ?_) fun _ => hs.respond rfl rfl rfl rfl
  exact ⟨hs.reads fun u => (failFlush e c u).withoutScratch, hs.canonical, hs.canonical', ⟨rfl, rfl⟩, hs.beats⟩

/-- Once the record is delivered, the command in execution is the same one or none. -/
theorem Alike.deliver (hs : Alike s s') (r : Response) : Alike (deliver r s) (deliver r s') where
  same := hs.reads fun u => (Machine.deliver r u).withoutScratch
  canonical := hs.canonical
  canonical' := hs.canonical'
  live := hs.live
  beats hp i hc := by
    rw [deliver_cmd] at hc
    split at hc
    · cases hc
    · exact hs.beats hp i hc

theorem Alike.deliverValue (hs : Alike s s') (v : Half) (rest : List Half) :
    Alike (deliverValue v rest s) (deliverValue v rest s') where
  same := hs.reads fun u => (Machine.deliverValue v rest u).withoutScratch
  canonical := hs.canonical
  canonical' := hs.canonical'
  live := hs.live
  beats hp i hc := by
    rw [deliverValue_cmd] at hc
    split at hc
    · cases hc
    · exact hs.beats hp i hc

/-! ## The payload transfer -/

/-- A beat passes its test in both engines or in neither. -/
theorem BeatsAlike.beatGood {i : Instr} (h : BeatsAlike i s s') (k : Nat) (beat : Word) (good : Bool) :
    beatGood i k beat s.crc good = beatGood i k beat s'.crc good := by
  cases i with
  | crcCheck n =>
    by_cases hn : 2 ≤ n
    · rw [h hn]
    · simp [Machine.beatGood, show n < 2 by omega]
  | _ => rfl

theorem beatStore_wf (i : Instr) (k : Nat) (beat : Word) (good : Bool) {m : Memory 16} (hm : m.wf) :
    (beatStore i k beat good m).wf := by
  rcases beatStore_cases i k beat good m with h | ⟨_, _, _, -, -, -, -, h⟩ <;> rw [h]
  · exact hm
  · exact Memory.write_wf _ _ _ hm

/-- A value stored behind those read before it is read after them. -/
theorem Memory.readFrom_write_succ {w : Nat} (m : Memory w) (k : Nat) (v : BitVec w) (hm : m.wf) :
    (m.write k v).readFrom 0 (k + 1) = m.readFrom 0 k ++ [v] :=
  Memory.readFrom_writeFrom_append m k [v] hm

/-- One more beat leaves alike what the command keeps of its beats. -/
theorem BeatsAlike.takeBeat {i : Instr} (hs : Alike s s') (h : BeatsAlike i s s') (beat : Word) (rest : List Word) :
    BeatsAlike i (takeBeat i beat rest s) (takeBeat i beat rest s') := by
  cases i with
  | crc16 n => exact congrArg (crcUpdate · (beatByte beat)) h
  | crcCheck n =>
    intro hn
    simp only [takeBeat_crc, beatCrc]
    rw [h hn, hs.reads (·.plTaken)]
  | writeHolding slave start n =>
    intro hn hg
    obtain ⟨hgood, hr⟩ : s.plGood = true ∧ beatInRange beat = true := by
      simpa [Machine.beatGood, show ¬ Config.maxWriteCount < n by omega] using hg
    have hgood' : s'.plGood = true := hs.reads (·.plGood) ▸ hgood
    simp only [takeBeat_vbuf, takeBeat_plTaken, beatStore, hn, hgood, hgood', hr, and_self, if_true]
    rw [← hs.reads (·.plTaken), Memory.readFrom_write_succ _ _ _ hs.canonical.v,
      Memory.readFrom_write_succ _ _ _ hs.canonical'.v, h hn hgood]
  | _ => trivial

theorem Alike.takeBeat {i : Instr} (hs : Alike s s') (hc : s.cmd = some i) (h : BeatsAlike i s s') (beat : Word)
    (rest : List Word) : Alike (takeBeat i beat rest s) (takeBeat i beat rest s') where
  same := by
    have hgood : beatGood i s.plTaken beat s.crc s.plGood = beatGood i s'.plTaken beat s'.crc s'.plGood := by
      rw [h.beatGood, hs.reads (·.plTaken), hs.reads (·.plGood)]
    exact congrArg₂ (fun u good => Machine.log (.payload beat)
      { u with payload := rest, plTaken := u.plTaken + 1, plGood := good }) hs.same hgood
  canonical := { hs.canonical with v := beatStore_wf _ _ _ _ hs.canonical.v }
  canonical' := { hs.canonical' with v := beatStore_wf _ _ _ _ hs.canonical'.v }
  live := hs.live
  beats _ j hj := by
    obtain rfl : i = j := Option.some.inj (hc.symm.trans hj)
    exact h.takeBeat hs beat rest

/-- With all beats taken the transfer is over. -/
theorem Alike.endPayload (hs : Alike s s') :
    Alike { s with plWait := false, plTaken := 0, plGood := true }
      { s' with plWait := false, plTaken := 0, plGood := true } :=
  ⟨hs.reads fun u => State.withoutScratch { u with plWait := false, plTaken := 0, plGood := true }, hs.canonical,
    hs.canonical', hs.live, nofun⟩

/-- A transfer takes the same beat, or goes on knowing the same. -/
theorem takePayload_alike {i : Instr} {n : Nat} {f : Bool → State → Progress} (hs : Alike s s')
    (hc : s.cmd = some i) (h : BeatsAlike i s s')
    (hf : n ≤ s.plTaken → Progress.Alike (f s.plGood { s with plWait := false, plTaken := 0, plGood := true })
      (f s.plGood { s' with plWait := false, plTaken := 0, plGood := true })) :
    Progress.Alike (takePayload i n f s) (takePayload i n f s') := by
  have htaken := hs.reads (·.plTaken)
  by_cases hn : s.plTaken < n
  · cases hp : s.payload with
    | nil =>
      rw [takePayload_waits hn hp, takePayload_waits (htaken ▸ hn) (hs.reads (·.payload) ▸ hp)]
      exact .blocked
    | cons beat rest =>
      rw [takePayload_beat hn hp, takePayload_beat (htaken ▸ hn) (hs.reads (·.payload) ▸ hp)]
      exact .moved (hs.takeBeat hc h beat rest)
  · rw [takePayload_done (Nat.le_of_not_lt hn), takePayload_done (Nat.le_of_not_lt (htaken ▸ hn)),
      ← hs.reads (·.plGood)]
    exact hf (Nat.le_of_not_lt hn)

/-! ## The begin of an exchange -/

/-- Two memories that give the same cells give the same first cells. -/
theorem Memory.readFrom_eq_of_le {w : Nat} {m m' : Memory w} {i k n : Nat} (hn : n ≤ k)
    (h : m.readFrom i k = m'.readFrom i k) : m.readFrom i n = m'.readFrom i n := by
  rw [← Nat.add_sub_cancel' hn, Memory.readFrom_add, Memory.readFrom_add] at h
  exact List.append_inj_left h (by simp)

/-- A frame loaded is the request in `TXBUF` (10 R35). -/
theorem withRequest_tx {fc : Byte} {n : Nat} {frame : List Byte} (hm : s.txbuf.wf)
    (hl : frame.length ≤ Config.maxFrame) : (s.withRequest fc n frame).tx = frame :=
  loadRequest_tx (s := { s with expFc := fc, reqCount := BitVec.ofNat 16 n }) hm (if_pos hl)

/-- Both engines have the same request latched and loaded. -/
theorem Alike.live_withRequest (hs : Alike s s') (fc : Byte) (n : Nat) {frame : List Byte}
    (hl : frame.length ≤ Config.maxFrame) :
    LiveAlike .sTx (s.withRequest fc n frame) (s'.withRequest fc n frame) :=
  ⟨rfl, by rw [withRequest_tx hs.canonical.tx hl, withRequest_tx hs.canonical'.tx hl], rfl, rfl⟩

theorem Alike.withRequest (hs : Alike s s') (hp : s.plWait = false) (fc : Byte) (n : Nat) {frame : List Byte}
    (hl : frame.length ≤ Config.maxFrame) :
    Alike (s.withRequest fc n frame) (s'.withRequest fc n frame) where
  same := hs.same
  canonical := { hs.canonical with tx := Memory.writeFrom_wf _ _ _ hs.canonical.tx }
  canonical' := { hs.canonical' with tx := Memory.writeFrom_wf _ _ _ hs.canonical'.tx }
  live := by
    have hlive := hs.live
    show LiveAlike s.st _ _
    cases hst : s.st <;> rw [hst] at hlive
    case sTx => exact hs.live_withRequest fc n hl
    case sRx =>
      obtain ⟨hlen, hrx, hrem, -, -⟩ := hlive
      exact ⟨hlen, hrx, hrem, rfl, rfl⟩
    case sCheck =>
      obtain ⟨hlen, hrx, -, -⟩ := hlive
      exact ⟨hlen, hrx, rfl, rfl⟩
    all_goals exact hlive
  beats := beatsAlike_of_not_plWait hp

theorem beginExchange_alike (hs : Alike s s') (h : LiveAlike .sTx s s') (slave : Byte) :
    Progress.Alike (beginExchange slave s) (beginExchange slave s') := by
  refine ite_rel (by rw [hs.reads (·.connOpen)]) (fun _ => ?_) fun _ => .moved (hs.raise _ _)
  exact .moved ⟨hs.reads fun u => (offerCall { u with slave := slave, st := .sTx }).withoutScratch, hs.canonical,
    hs.canonical', h, hs.beats⟩

/-- The same request is latched, loaded and its exchange begun (43 R230, 42 R193). -/
theorem request_alike (hs : Alike s s') (hp : s.plWait = false) (fc slave : Byte) (n : Nat)
    {frame frame' : List Byte} (hf : frame = frame') :
    Progress.Alike
      ((loadRequest frame { s with expFc := fc, reqCount := BitVec.ofNat 16 n }).andThen (beginExchange slave))
      ((loadRequest frame' { s' with expFc := fc, reqCount := BitVec.ofNat 16 n }).andThen (beginExchange slave)) := by
  subst hf
  unfold loadRequest
  split
  · rename_i hl
    exact beginExchange_alike (hs.withRequest hp fc n hl) (hs.live_withRequest fc n hl) slave
  · exact .fault _

theorem readRequest_alike (hs : Alike s s') (hp : s.plWait = false) (k : ReadKind) (slave : Byte) (start : Half)
    (n : Nat) : Progress.Alike (readRequest k slave start n s) (readRequest k slave start n s') := by
  unfold readRequest
  split
  · exact .moved (hs.raise _ _)
  · exact request_alike hs hp _ _ _ rfl

theorem Alike.withVLen (hs : Alike s s') (v : BitVec 8) : Alike { s with vLen := v } { s' with vLen := v } :=
  ⟨hs.same, hs.canonical, hs.canonical', hs.live.overwrite _ _ _ _ _ _, hs.beats⟩

/-- With the same values in `VBUF` a write sends the same request. -/
theorem writeRequest_alike (hs : Alike s s') (hp : s.plWait = false) {slave : Byte} {start : Half} {n : Nat}
    {good : Bool}
    (hv : n ≤ Config.maxWriteCount → good = true → s.vbuf.readFrom 0 n = s'.vbuf.readFrom 0 n) :
    Progress.Alike (writeRequest slave start n good s) (writeRequest slave start n good s') := by
  unfold writeRequest
  split
  · exact .moved (hs.raise _ _)
  · rename_i hn
    cases good with
    | false => exact .moved (hs.raise _ _)
    | true =>
      exact request_alike (hs.withVLen (BitVec.ofNat 8 n)) hp _ _ _
        (congrArg (encodeWrite slave start) (hv (by omega) rfl))

theorem crcCheckAnswer_alike (hs : Alike s s') (n : Nat) (good : Bool) :
    Progress.Alike (crcCheckAnswer n good s) (crcCheckAnswer n good s') := by
  unfold crcCheckAnswer
  split
  · exact .moved (hs.raise _ _)
  · split
    · exact .moved (hs.respond rfl rfl rfl rfl)
    · exact .moved (hs.raise _ _)

/-- The name of a port passes through and leaves no scratch (42 R182). -/
theorem forwardStep_alike (hs : Alike s s') {n : Nat} {baud : Word} {databits parity stopbits : Byte}
    (hc : s.cmd = some (.connect n baud databits parity stopbits)) :
    Progress.Alike (forwardStep n s) (forwardStep n s') := by
  unfold forwardStep
  rw [← hs.reads (·.payload), ← hs.reads (·.twReady)]
  split
  · exact .blocked
  · split
    · refine .moved ⟨hs.reads fun u => (forwardByte n _ _ u).withoutScratch, hs.canonical, hs.canonical',
        hs.live, fun _ i hi => ?_⟩
      cases hc.symm.trans hi
      trivial
    · exact .blocked

theorem payloadStep_alike (hs : Alike s s') (hp : s.plWait = true) :
    Progress.Alike (payloadStep s) (payloadStep s') := by
  have hb := hs.beats hp
  unfold payloadStep
  rw [← hs.reads (·.cmd)]
  split
  case h_1 hc =>
    exact takePayload_alike hs hc (hb _ hc) fun hk =>
      writeRequest_alike hs.endPayload rfl fun hn hg => Memory.readFrom_eq_of_le hk (hb _ hc hn hg)
  case h_2 hc => exact forwardStep_alike hs hc
  case h_3 hc =>
    have hcrc : s.crc = s'.crc := hb _ hc
    exact takePayload_alike hs hc (hb _ hc) fun _ => .moved (hs.endPayload.respond rfl rfl hcrc rfl)
  case h_4 hc => exact takePayload_alike hs hc (hb _ hc) fun _ => crcCheckAnswer_alike hs.endPayload _ _
  all_goals exact .blocked

/-! ## The transport calls and their answers -/

/-- The same call is due. -/
theorem Alike.portCall (hs : Alike s s') : s.portCall = s'.portCall := by
  unfold State.portCall
  rw [← hs.reads (·.st), ← hs.reads (·.handle), ← hs.reads (·.cmd), ← hs.reads (·.tDrain)]
  cases hst : s.st
  case sTx =>
    obtain ⟨-, htx, -, -⟩ := hs.live_of hst
    simp only [htx]
  case sRx =>
    obtain ⟨hlen, hrx, hrem, -, -⟩ := hs.live_of hst
    simp only [wanted, hlen, hrx, hrem]
  all_goals rfl

/-- Only the call of a `CONNECT` has a name to follow. -/
theorem isConnect_of_nameLength {c : Call} (hp : s.portCall = some c) (hn : 0 < c.nameLength) :
    ∃ n baud databits parity stopbits, s.cmd = some (.connect n baud databits parity stopbits) := by
  rcases portCall_eq_some hp with ⟨-, rfl⟩ | ⟨-, n, baud, databits, parity, stopbits, hc, -⟩ | ⟨-, rfl⟩ | ⟨-, rfl⟩ |
    ⟨-, rfl⟩ | ⟨-, rfl⟩ | ⟨-, rfl⟩
  case inr.inl => exact ⟨_, _, _, _, _, hc⟩
  all_goals exact absurd hn (Nat.lt_irrefl 0)

theorem callStep_alike (hs : Alike s s') : Progress.Alike (callStep s) (callStep s') := by
  unfold callStep
  rw [← hs.reads (·.tReady), ← hs.portCall]
  split
  · split
    · rename_i c hp
      refine .moved ⟨hs.reads fun u => (issue c u).withoutScratch, hs.canonical, hs.canonical', hs.live,
        fun hw i hi => ?_⟩
      obtain ⟨n, baud, databits, parity, stopbits, hc⟩ := isConnect_of_nameLength hp (of_decide_eq_true hw)
      cases hc.symm.trans hi
      trivial
    · exact .blocked
  · exact .blocked

theorem takeAnswer_alike {f : Answer → State → Progress} (hs : Alike s s')
    (hf : ∀ a rest, Progress.Alike (f a { s with answers := rest }) (f a { s' with answers := rest })) :
    Progress.Alike (takeAnswer f s) (takeAnswer f s') := by
  cases ha : s.answers with
  | nil =>
    rw [takeAnswer_nil ha, takeAnswer_nil (hs.reads (·.answers) ▸ ha)]
    exact .blocked
  | cons a rest =>
    rw [takeAnswer_cons ha, takeAnswer_cons (hs.reads (·.answers) ▸ ha)]
    exact hf a rest

theorem closeAnswer_alike (hs : Alike s s') (hst : s.st = .sClosing) (a : Answer) :
    Progress.Alike (closeAnswer a s) (closeAnswer a s') := by
  have hop : s.op = s'.op := hs.live_of hst
  refine ite_rel (by rw [hop]) (fun _ => .moved ?_) fun _ => .moved ?_
  · exact ⟨hs.reads fun u => (enterOpen (log (.reply .closed) { u with connOpen := false })).withoutScratch,
      hs.canonical, hs.canonical', trivial, hs.beats⟩
  · exact ⟨hs.reads fun u => (respond Status.ok.code 0 1 []
      (log (.reply .closed) { u with connOpen := false, st := .sDisc })).withoutScratch,
      hs.canonical, hs.canonical', trivial, hs.beats⟩

theorem Alike.latchAttributes (hs : Alike s s') {i i' : Option Instr} (hi : i = i') :
    Alike (latchAttributes i s) (latchAttributes i' s') := by
  subst hi
  unfold Machine.latchAttributes
  split
  · rename_i baud databits parity stopbits
    exact ⟨hs.reads fun u => State.withoutScratch { u with
      baud := baud, databits := databits, parity := parity, stopbits := stopbits },
      hs.canonical, hs.canonical', hs.live, hs.beats⟩
  all_goals exact hs

theorem openAnswer_alike (hs : Alike s s') (a : Answer) :
    Progress.Alike (openAnswer a s) (openAnswer a s') := by
  unfold openAnswer
  split
  · have h : Alike { s with handle := a.handle, connOpen := true, slave := 0, st := .sDrain }
        { s' with handle := a.handle, connOpen := true, slave := 0, st := .sDrain } :=
      ⟨hs.reads fun u => State.withoutScratch { u with
        handle := a.handle, connOpen := true, slave := 0, st := .sDrain },
        hs.canonical, hs.canonical', trivial, hs.beats⟩
    exact .moved ((h.log rfl).latchAttributes (hs.reads (·.cmd))).offerCall
  · exact .moved (((hs.enter .sDisc trivial).log rfl).raise _ _)

theorem drainAnswer_alike (hs : Alike s s') (a : Answer) :
    Progress.Alike (drainAnswer a s) (drainAnswer a s') := by
  refine Progress.Alike.checkedRead ?_ rfl _
  split
  · have hset : s.tSettle = s'.tSettle := hs.reads (·.tSettle)
    exact .moved ⟨hs.reads fun u => State.withoutScratch (log (.reply (.drained a.bytes)) { u with st := .sSettle }),
      hs.canonical, hs.canonical', hset, hs.beats⟩
  · exact .moved (hs.log rfl).offerCall

theorem settleStep_alike (hs : Alike s s') (hst : s.st = .sSettle) :
    Progress.Alike (settleStep s) (settleStep s') := by
  have hrem : s.rem = s'.rem := hs.live_of hst
  refine ite_rel (by rw [hrem]) (fun _ => .moved ?_) fun _ =>
    ite_rel (by rw [hs.reads (·.ticks)]) (fun _ => .blocked) fun _ => .moved ?_
  · exact ((hs.enter .sSyncFlush trivial).log (congrArg Event.wait (hs.reads (·.tSettle)))).offerCall
  · exact ⟨hs.reads fun u => State.withoutScratch { u with ticks := u.ticks - 1 }, hs.canonical, hs.canonical',
      liveAlike_of_st hst (congrArg (ticksLeft · 1) hrem), hs.beats⟩

theorem writeAnswer_alike (hs : Alike s s') (hst : s.st = .sTx) (a : Answer) :
    Progress.Alike (writeAnswer a s) (writeAnswer a s') := by
  obtain ⟨hlen, -, hfc, hcount⟩ := hs.live_of hst
  refine ite_rel (by rw [hlen]) (fun _ => .moved ?_) fun _ => .moved ((hs.log rfl).raise _ _)
  exact ⟨hs.reads fun u => (offerCall (log (.reply (writeReply a)) { u with st := .sRx })).withoutScratch,
    hs.canonical, hs.canonical', ⟨rfl, rfl, hs.reads (·.tResp), hfc, hcount⟩, hs.beats⟩

theorem appendRx_alike (hs : Alike s s') (hst : s.st = .sRx) (bytes : List Byte) :
    Progress.Alike (appendRx bytes s) (appendRx bytes s') := by
  obtain ⟨hlen, hrx, hrem, hfc, hcount⟩ := hs.live_of hst
  by_cases hfit : s.rxLen.toNat + bytes.length ≤ Config.maxFrame
  · have h : appendRx bytes s = .moved _ := if_pos hfit
    have h' : appendRx bytes s' = .moved _ := if_pos (hlen ▸ hfit)
    have hrx' := (appendRx_rx hs.canonical.rx h).trans
      ((congrArg (· ++ bytes) hrx).trans (appendRx_rx hs.canonical'.rx h').symm)
    rw [h, h']
    exact .moved ⟨hs.same, { hs.canonical with rx := Memory.writeFrom_wf _ _ _ hs.canonical.rx },
      { hs.canonical' with rx := Memory.writeFrom_wf _ _ _ hs.canonical'.rx },
      liveAlike_of_st hst ⟨by rw [hlen], hrx', hrem, hfc, hcount⟩, hs.beats⟩
  · have h : appendRx bytes s = .fault .frameBufferIndex := if_neg hfit
    have h' : appendRx bytes s' = .fault .frameBufferIndex := if_neg (hlen ▸ hfit)
    rw [h, h']
    exact .fault _

/-- After the bytes are stored both engines go on the same way (42 R196 to R199). -/
theorem Alike.afterBytes (hs : Alike s s') (hst : s.st = .sRx) : Alike (afterBytes s) (afterBytes s') := by
  obtain ⟨hlen, hrx, hrem, hfc, hcount⟩ := hs.live_of hst
  have hmore : Alike (if s.rem = 0 then Machine.raise .transportTimeout 0 s else Machine.offerCall s)
      (if s'.rem = 0 then Machine.raise .transportTimeout 0 s' else Machine.offerCall s') :=
    ite_rel (by rw [hrem]) (fun _ => hs.raise _ _) fun _ => hs.offerCall
  unfold Machine.afterBytes
  rw [← hrx]
  split
  · exact ite_rel Iff.rfl (fun _ => hs.raise _ _) fun _ =>
      ite_rel (by rw [hlen]) (fun _ => hs.enter .sCheck ⟨hlen, hrx, hfc, hcount⟩) fun _ => hmore
  · exact hmore

/-- The ticks of an answer are counted off `REM` in both engines (42 R196). -/
theorem Alike.countTicks (hs : Alike s s') (hst : s.st = .sRx) (dt : Nat) :
    Alike { s with rem := ticksLeft s.rem dt } { s' with rem := ticksLeft s'.rem dt } := by
  obtain ⟨hlen, hrx, hrem, hfc, hcount⟩ := hs.live_of hst
  exact ⟨hs.same, hs.canonical, hs.canonical',
    liveAlike_of_st hst ⟨hlen, hrx, congrArg (ticksLeft · dt) hrem, hfc, hcount⟩, hs.beats⟩

theorem readAnswer_alike (hs : Alike s s') (hst : s.st = .sRx) (a : Answer) :
    Progress.Alike (readAnswer a s) (readAnswer a s') := by
  obtain ⟨hlen, hrx, -, -, -⟩ := hs.live_of hst
  refine ite_rel (by rw [hlen]) (fun _ => .fault _) fun _ =>
    Progress.Alike.checkedRead ?_ (by rw [wanted, wanted, hlen, hrx]) a
  refine ite_rel Iff.rfl (fun _ => .moved ((hs.log rfl).raise _ _)) fun _ =>
    (appendRx_alike (hs.log rfl) hst a.bytes).andThen fun u u' hu _ h => ?_
  have hust : u.st = .sRx := by
    obtain ⟨-, rfl⟩ := appendRx_moved hu
    exact hst
  exact .moved ((h.countTicks hust a.dt).afterBytes hust)

/-! ## The check of the frame -/

theorem Alike.checkCrc (hs : Alike s s') (hp : s.plWait = false) (b : List Byte) :
    Alike (checkCrc b s) (checkCrc b s') := by
  unfold Machine.checkCrc
  split
  · exact hs
  · exact ⟨hs.same, hs.canonical, hs.canonical', hs.live.overwrite _ _ _ _ _ _, beatsAlike_of_not_plWait hp⟩

theorem loadValues_alike (hs : Alike s s') (hp : s.plWait = false) (vs : List Half) :
    Progress.Alike (loadValues vs s) (loadValues vs s') := by
  unfold loadValues
  split
  · exact .moved ⟨hs.same, { hs.canonical with v := Memory.writeFrom_wf _ _ _ hs.canonical.v },
      { hs.canonical' with v := Memory.writeFrom_wf _ _ _ hs.canonical'.v }, hs.live.overwrite _ _ _ _ _ _,
      beatsAlike_of_not_plWait hp⟩
  · exact .fault _

theorem Alike.finishValues (hs : Alike s s') (hcount : s.reqCount = s'.reqCount) (hlen : s.vLen = s'.vLen)
    (hv : s.values = s'.values) (vs : List Half) : Alike (finishValues vs s) (finishValues vs s') := by
  refine ite_rel (by rw [hcount]) (fun _ => ?_) fun _ => hs.raise _ _
  exact (hs.enter .sIdle trivial).respond rfl rfl (congrArg _ hlen) hv

theorem Alike.finishEcho (hs : Alike s s') (hcount : s.reqCount = s'.reqCount) (count : Half) :
    Alike (finishEcho count s) (finishEcho count s') :=
  ite_rel (by rw [hcount]) (fun _ => (hs.enter .sIdle trivial).respond rfl rfl rfl rfl) fun _ => hs.raise _ _

@[simp] theorem checkCrc_reqCount (b : List Byte) (s : State) : (checkCrc b s).reqCount = s.reqCount := by
  unfold checkCrc
  split <;> rfl

@[simp] theorem checkCrc_plWait (b : List Byte) (s : State) : (checkCrc b s).plWait = s.plWait := by
  unfold checkCrc
  split <;> rfl

theorem checkStep_alike (hs : Alike s s') (hst : s.st = .sCheck) (hp : s.plWait = false) :
    Progress.Alike (checkStep s) (checkStep s') := by
  obtain ⟨hlen, hrx, hfc, hcount⟩ := hs.live_of hst
  have hcrc := hs.checkCrc hp s.rx
  have hcount' : (checkCrc s.rx s).reqCount = (checkCrc s.rx s').reqCount := by simp [hcount]
  have hdec : decodeFrame s.rx s.slave s.expFc = decodeFrame s'.rx s'.slave s'.expFc := by
    rw [hrx, hfc, hs.reads (·.slave)]
  refine ite_rel (by rw [hlen]) (fun _ => .fault _) fun _ => ?_
  rw [← hdec, ← hrx]
  split
  · rename_i vs _
    refine (loadValues_alike hcrc (by simp [hp]) vs).andThen fun u u' hu hu' h => ?_
    have hv : u.values = u'.values :=
      (loadValues_values hcrc.canonical.v hu).trans (loadValues_values hcrc.canonical'.v hu').symm
    obtain ⟨-, rfl⟩ := loadValues_moved hu
    obtain ⟨-, rfl⟩ := loadValues_moved hu'
    exact .moved (h.finishValues hcount' rfl hv vs)
  · exact .moved (hcrc.finishEcho hcount' _)
  · exact .moved (hcrc.raise _ _)

theorem failReturn_alike (hs : Alike s s') (hst : s.st = .sErrFlush) (a : Answer) :
    Progress.Alike (failReturn a s) (failReturn a s') := by
  obtain ⟨herr, hexc⟩ := hs.live_of hst
  exact .moved (((hs.enter .sIdle trivial).log rfl).respond herr hexc rfl rfl)

theorem sessionStep_alike (hs : Alike s s') (hp : s.plWait = false) :
    Progress.Alike (sessionStep s) (sessionStep s') := by
  unfold sessionStep
  rw [← hs.reads (·.st)]
  cases hst : s.st with
  | sDisc => exact .blocked
  | sIdle => exact .blocked
  | sClosing => exact takeAnswer_alike hs fun a rest => closeAnswer_alike (hs.withAnswers rest) hst a
  | sOpen => exact takeAnswer_alike hs fun a rest => openAnswer_alike (hs.withAnswers rest) a
  | sDrain => exact takeAnswer_alike hs fun a rest => drainAnswer_alike (hs.withAnswers rest) a
  | sSettle => exact settleStep_alike hs hst
  | sSyncFlush =>
    exact takeAnswer_alike hs fun a rest =>
      .moved ((((hs.withAnswers rest).enter .sIdle trivial).log rfl).respond rfl rfl rfl rfl)
  | sTx => exact takeAnswer_alike hs fun a rest => writeAnswer_alike (hs.withAnswers rest) hst a
  | sRx => exact takeAnswer_alike hs fun a rest => readAnswer_alike (hs.withAnswers rest) hst a
  | sCheck => exact checkStep_alike hs hst hp
  | sErrFlush => exact takeAnswer_alike hs fun a rest => failReturn_alike (hs.withAnswers rest) hst a

/-! ## A transition, a step, a run -/

theorem workStep_alike (hs : Alike s s') : Progress.Alike (workStep s) (workStep s') := by
  unfold workStep
  rw [← hs.reads (·.plWait), ← hs.reads (·.callWait)]
  cases hp : s.plWait with
  | true => exact payloadStep_alike hs hp
  | false =>
    cases s.callWait with
    | true => exact callStep_alike hs
    | false => exact sessionStep_alike hs hp

theorem transition_alike (hs : Alike s s') : Progress.Alike (transition s) (transition s') := by
  unfold transition
  rw [← hs.reads (·.rst), ← hs.reads (·.rspOut), ← hs.reads (·.rvOut), ← hs.reads (·.rspReady),
    ← hs.reads (·.rvReady)]
  split
  · exact .blocked
  · split
    · split
      · exact .moved (hs.deliver _)
      · exact .blocked
    · split
      · exact .moved (hs.deliverValue _ _)
      · exact .blocked
    · exact workStep_alike hs

/-- An accepted command leaves the same opcode in both engines (10 R39). -/
theorem Alike.accept (hs : Alike s s') (hr : s.st.isRest = true) (i : Instr) :
    Alike (accept i s) (accept i s') :=
  ⟨hs.reads fun u => (Machine.accept i u).withoutScratch, hs.canonical, hs.canonical',
    liveAlike_of_isRest hr _ _, nofun⟩

/-- A command that takes a payload at rest begins with nothing taken, and with the first value of its `CRC`. -/
theorem awaitPayload_alike (hs : Alike s s') {i : Instr} (hc : s.cmd = some i)
    (h : BeatsAlike i (awaitPayload s) (awaitPayload s')) : Alike (awaitPayload s) (awaitPayload s') where
  same := hs.reads fun u => (awaitPayload u).withoutScratch
  canonical := hs.canonical
  canonical' := hs.canonical'
  live := hs.live
  beats _ j hj := by
    obtain rfl : i = j := Option.some.inj (hc.symm.trans hj)
    exact h

theorem Alike.initialCrc (hs : Alike s s') (hp : s.plWait = false) (i : Instr) :
    Alike { s with crc := initialCrc i s.crc } { s' with crc := initialCrc i s'.crc } :=
  ⟨hs.same, hs.canonical, hs.canonical', hs.live.overwrite _ _ _ _ _ _, beatsAlike_of_not_plWait hp⟩

/-- What a command does first, once accepted. -/
theorem first_alike (hs : Alike s s') (hr : s.st.isRest = true) (i : Instr) :
    Progress.Alike (Instr.first i (accept i s)) (Instr.first i (accept i s')) := by
  have ha := hs.accept hr i
  have hconn := ha.reads (·.connOpen)
  cases i with
  | readHolding slave start n => exact readRequest_alike ha rfl _ _ _ _
  | readInput slave start n => exact readRequest_alike ha rfl _ _ _ _
  | writeHolding slave start n => exact .moved (awaitPayload_alike ha rfl fun _ _ => rfl)
  | connect n baud databits parity stopbits =>
    exact .moved (ite_rel (by rw [hconn]) (fun _ => (ha.enter .sClosing rfl).offerCall)
      fun _ => (ha.enter .sOpen trivial).offerCall)
  | disconnect =>
    exact .moved (ite_rel (by rw [hconn]) (fun _ => (ha.enter .sClosing rfl).offerCall)
      fun _ => ha.respond rfl rfl rfl rfl)
  | setTiming settle resp drain =>
    have ht : Alike { Machine.accept _ s with tSettle := settle, tResp := resp, tDrain := drain }
        { Machine.accept _ s' with tSettle := settle, tResp := resp, tDrain := drain } :=
      ⟨ha.reads fun u => State.withoutScratch { u with tSettle := settle, tResp := resp, tDrain := drain },
        ha.canonical, ha.canonical', ha.live, ha.beats⟩
    exact .moved (ht.respond rfl rfl rfl rfl)
  | crc16 n => exact .moved (awaitPayload_alike (ha.initialCrc rfl (.crc16 n)) rfl rfl)
  | crcCheck n =>
    refine .moved (awaitPayload_alike (ha.initialCrc rfl (.crcCheck n)) rfl fun hn => ?_)
    simp [Machine.initialCrc, show ¬ n < 2 by omega]

theorem isRest_of_cmdReady (hr : s.cmdReady = true) : s.st.isRest = true := by
  simp only [State.cmdReady, Bool.and_eq_true] at hr
  obtain ⟨⟨-, hrest⟩, -⟩ := hr
  exact hrest

theorem exec_alike (hs : Alike s s') (hr : s.cmdReady = true) (i : Instr) :
    OutcomesAlike (exec i s) (exec i s') := by
  rw [exec_ready hr, exec_ready (hs.reads (·.cmdReady) ▸ hr)]
  exact (first_alike hs (isRest_of_cmdReady hr) i).outcome hs

theorem CanonicalBuffers.empty : CanonicalBuffers [] [] [] := ⟨Memory.nil_wf, Memory.nil_wf, Memory.nil_wf⟩

/-- A reset forgets all scratch (70 R301): it leads both engines to one state. -/
theorem Alike.hardReset (hs : Alike s s') : Alike (hardReset s) (hardReset s') := by
  rw [← hs.reads Machine.hardReset]
  exact ⟨rfl, CanonicalBuffers.empty, CanonicalBuffers.empty, trivial, nofun⟩

/-- A step of two alike engines: alike states, or the same stop. -/
theorem step_alike (hs : Alike s s') : OutcomesAlike (step s) (step s') := by
  unfold step
  rw [← hs.reads (·.rst), ← hs.reads (·.cmdReady), ← hs.reads presented]
  split
  · exact .next hs.hardReset
  · split
    · rename_i hr
      split
      · exact .next hs
      · split
        · exact exec_alike hs.consumeRecord hr _
        · exact .next ((hs.consumeRecord.log rfl).raise _ _)
    · exact (transition_alike hs).outcome hs

/-- A run of two alike engines: alike states, or the same stop. -/
theorem run_alike (n : Nat) (hs : Alike s s') :
    OutcomesAlike (Host.Core.run Sys2Proof.core n s) (Host.Core.run Sys2Proof.core n s') := by
  induction n generalizing s s' with
  | zero => exact .next hs
  | succ n ih =>
    rw [run_succ, run_succ]
    have h := step_alike hs
    revert h
    generalize step s = o, step s' = o'
    rintro (h | f | r)
    · exact ih h
    · exact .fault f
    · exact .refused r

/-- Two engines at rest that differ in scratch state only are alike. -/
theorem alike_of_atRest (hs : s.atRest) (h : s.withoutScratch = s'.withoutScratch)
    (hm : CanonicalBuffers s.txbuf s.rxbuf s.vbuf) (hm' : CanonicalBuffers s'.txbuf s'.rxbuf s'.vbuf) : Alike s s' := by
  obtain ⟨hr, hp, -⟩ := hs
  exact ⟨h, hm, hm', liveAlike_of_isRest (isRest_of_cmdReady hr) _ _, beatsAlike_of_not_plWait hp⟩

end

/-- What two alike outcomes have in common: the same kind, and the same persistent state or the same stop. -/
theorem OutcomesAlike.agree {o o' : Host.Outcome State Fault Refusal} (h : OutcomesAlike o o') :
    (∀ t, o = .next t → ∃ t', o' = .next t' ∧ State.withoutScratch t' = State.withoutScratch t) ∧
      (∀ x, o = .fault x → o' = .fault x) ∧ ∀ x, o = .refused x → o' = .refused x := by
  cases h with
  | next h => exact ⟨by rintro t ⟨⟩; exact ⟨_, rfl, h.same.symm⟩, by rintro x ⟨⟩, by rintro x ⟨⟩⟩
  | fault f => exact ⟨by rintro t ⟨⟩, fun _ e => e, by rintro x ⟨⟩⟩
  | refused r => exact ⟨by rintro t ⟨⟩, by rintro x ⟨⟩, fun _ e => e⟩

/-- Settles O58: alike engines stay alike for any number of steps. -/
theorem scratchCarriesNothingBetweenCommands : Obligations.ScratchCarriesNothingBetweenCommands :=
  fun _ _ n hs _ h htx hrx hv htx' hrx' hv' =>
    (run_alike n (alike_of_atRest hs h ⟨htx, hrx, hv⟩ ⟨htx', hrx', hv'⟩)).agree

end Sys2Proof.Machine
end

section
/-! PROOFS. Where a transition can stop (20_memory.md R81, 30_encoding.md R99). Under the invariant every index into a
buffer is in range, so nothing faults; of the answers only those of the two reads can be refused. -/

namespace Sys2Proof.Machine

/-- A transition moves, or waits, or is refused for a reason in `P`; it does not fault. -/
def Progress.StopsOnly (P : Refusal → Prop) : Progress → Prop
  | .moved _ => True
  | .blocked => True
  | .fault _ => False
  | .refused x => P x

section
variable {P : Refusal → Prop}

theorem Progress.StopsOnly.outcome {p : Progress} (h : p.StopsOnly P) (s : State) :
    (∃ t, p.outcome s = .next t) ∨ ∃ x, p.outcome s = .refused x ∧ P x := by
  cases p with
  | moved t => exact .inl ⟨t, rfl⟩
  | blocked => exact .inl ⟨s, rfl⟩
  | fault f => exact absurd h id
  | refused x => exact .inr ⟨x, rfl, h⟩

theorem Progress.StopsOnly.andThen {p : Progress} {f : State → Progress} (h : p.StopsOnly P)
    (hf : ∀ t, p = .moved t → (f t).StopsOnly P) : (p.andThen f).StopsOnly P := by
  cases p with
  | moved t => exact hf t rfl
  | blocked => trivial
  | fault f => exact h
  | refused x => exact h

/-! ## What never stops -/

theorem loadRequest_stopsOnly {frame : List Byte} (h : frame.length ≤ Config.maxFrame) (s : State) :
    (loadRequest frame s).StopsOnly P := by
  rw [loadRequest, if_pos h]
  trivial

theorem beginExchange_stopsOnly (slave : Byte) (s : State) : (beginExchange slave s).StopsOnly P := by
  unfold beginExchange
  split <;> trivial

/-- The request of a read fits its buffer (10 R35). -/
theorem readRequest_stopsOnly (k : ReadKind) (slave : Byte) (start : Half) (n : Nat) (s : State) :
    (readRequest k slave start n s).StopsOnly P := by
  unfold readRequest
  split
  · trivial
  · exact (loadRequest_stopsOnly (by rw [encodeRead_length]; decide) _).andThen fun _ _ =>
      beginExchange_stopsOnly _ _

/-- So does that of a write, whose count is tested first (43 R233). -/
theorem writeRequest_stopsOnly (slave : Byte) (start : Half) (n : Nat) (good : Bool) (s : State) :
    (writeRequest slave start n good s).StopsOnly P := by
  unfold writeRequest
  split
  · trivial
  · rename_i hn
    have hfit : (encodeWrite slave start (s.vbuf.readFrom 0 n)).length ≤ Config.maxFrame := by
      rw [encodeWrite_length, Memory.length_readFrom]
      simp only [Config.maxWriteCount, Config.maxFrame] at hn ⊢
      omega
    split
    · exact (loadRequest_stopsOnly hfit _).andThen fun _ _ => beginExchange_stopsOnly _ _
    · trivial

/-- What a command does first. -/
theorem first_stopsOnly (i : Instr) (s : State) : (Instr.first i s).StopsOnly P := by
  cases i with
  | readHolding slave start n => exact readRequest_stopsOnly _ _ _ _ _
  | readInput slave start n => exact readRequest_stopsOnly _ _ _ _ _
  | _ => trivial

theorem takePayload_stopsOnly {i : Instr} {n : Nat} {f : Bool → State → Progress} {s : State}
    (hf : ∀ good u, (f good u).StopsOnly P) : (takePayload i n f s).StopsOnly P := by
  unfold takePayload
  split
  · split <;> trivial
  · exact hf _ _

theorem crcCheckAnswer_stopsOnly (n : Nat) (good : Bool) (s : State) :
    (crcCheckAnswer n good s).StopsOnly P := by
  unfold crcCheckAnswer
  split
  · trivial
  · split <;> trivial

theorem forwardStep_stopsOnly (n : Nat) (s : State) : (forwardStep n s).StopsOnly P := by
  unfold forwardStep
  split
  · trivial
  · split <;> trivial

theorem payloadStep_stopsOnly (s : State) : (payloadStep s).StopsOnly P := by
  unfold payloadStep
  split
  case h_1 => exact takePayload_stopsOnly (writeRequest_stopsOnly _ _ _)
  case h_2 => exact forwardStep_stopsOnly _ _
  case h_3 => exact takePayload_stopsOnly fun _ _ => trivial
  case h_4 => exact takePayload_stopsOnly (crcCheckAnswer_stopsOnly _)
  all_goals trivial

theorem callStep_stopsOnly (s : State) : (callStep s).StopsOnly P := by
  unfold callStep
  split
  · split <;> trivial
  · trivial

theorem takeAnswer_stopsOnly {f : Answer → State → Progress} {s : State}
    (hf : ∀ a rest, s.answers = a :: rest → (f a { s with answers := rest }).StopsOnly P) :
    (takeAnswer f s).StopsOnly P := by
  unfold takeAnswer
  split
  · trivial
  · exact hf _ _ ‹_›

theorem closeAnswer_stopsOnly (a : Answer) (s : State) : (closeAnswer a s).StopsOnly P := by
  unfold closeAnswer
  split <;> trivial

theorem openAnswer_stopsOnly (a : Answer) (s : State) : (openAnswer a s).StopsOnly P := by
  unfold openAnswer
  split <;> trivial

theorem settleStep_stopsOnly (s : State) : (settleStep s).StopsOnly P := by
  unfold settleStep
  split
  · trivial
  · split <;> trivial

theorem writeAnswer_stopsOnly (a : Answer) (s : State) : (writeAnswer a s).StopsOnly P := by
  unfold writeAnswer
  split <;> trivial

/-! ## The check of a frame -/

/-- The values of a frame are those its length has room for, and only a read is answered with values (41 R159,
R160). -/
theorem decodeFrame_values {b : List Byte} {slave fc : Byte} {vs : List Half}
    (h : decodeFrame b slave fc = .values vs) :
    fc ≠ Config.fcWriteHolding ∧ vs.length = (b.length - 5) / 2 := by
  unfold decodeFrame at h
  -- the length, the CRC, the address, the function and the exception bit: each refuses with an error
  iterate 5 (split at h; · cases h)
  split at h
  · unfold decodeEcho at h
    split at h <;> cases h
  · rename_i hfc
    unfold decodeValues at h
    split at h
    · cases h
    · rename_i hlen
      cases h
      rw [not_or, not_not] at hlen
      exact ⟨hfc, by rw [valuesAt_length, hlen.1]⟩

theorem State.length_rx (s : State) : s.rx.length = s.rxLen.toNat := Memory.length_readFrom _ _ _

/-- The values of a frame that fits its buffer fit theirs (10 R36, R38). -/
theorem checkStep_stopsOnly {s : State} (hfit : s.rxLen.toNat ≤ Config.maxFrame) :
    (checkStep s).StopsOnly P := by
  rw [checkStep, if_neg (Nat.not_lt.2 hfit)]
  split
  · rename_i vs hd
    have hvs : vs.length ≤ Config.maxReadCount := by
      rw [(decodeFrame_values hd).2, s.length_rx]
      exact Nat.div_le_div_right (Nat.sub_le_sub_right hfit 5)
    rw [loadValues, if_pos hvs]
    trivial
  · trivial
  · trivial

/-! ## The two reads -/

/-- Answer `a` breaks the contract of a read of at most `m` bytes, and `x` says how (20 R67, R81 c; 30 R99). -/
def BreaksContract (m : Nat) (a : Answer) (x : Refusal) : Prop :=
  (x = .answerStreamLength ∧ a.bytes.length ≠ a.n.toNat) ∨
  (x = .readAnswerTooLong ∧ a.bytes.length = a.n.toNat ∧ m < a.bytes.length)

theorem checkedRead_stopsOnly {m : Nat} {a : Answer} {p : Progress} (hP : ∀ x, BreaksContract m a x → P x)
    (hp : a.bytes.length ≤ m → p.StopsOnly P) : (checkedRead m a p).StopsOnly P := by
  unfold checkedRead
  split
  · exact hP _ (.inl ⟨rfl, ‹_›⟩)
  · rename_i hn
    split
    · exact hP _ (.inr ⟨rfl, not_not.1 hn, ‹_›⟩)
    · exact hp (Nat.le_of_not_lt ‹_›)

theorem drainAnswer_stopsOnly {a : Answer} {s : State}
    (hP : ∀ x, BreaksContract Config.drainBytes.toNat a x → P x) : (drainAnswer a s).StopsOnly P := by
  refine checkedRead_stopsOnly hP fun _ => ?_
  split <;> trivial

/-- What a response read brings fits the buffer: it ends at the target (42 R196). -/
theorem readAnswer_stopsOnly {a : Answer} {s : State} (hlt : s.rxLen.toNat < target s.rx)
    (hle : target s.rx ≤ Config.maxFrame) (hP : ∀ x, BreaksContract (wanted s) a x → P x) :
    (readAnswer a s).StopsOnly P := by
  rw [readAnswer, if_neg (by omega)]
  refine checkedRead_stopsOnly hP fun hm => ?_
  split
  · trivial
  · have hfit : (log (.reply (.data a.bytes a.dt)) s).rxLen.toNat + a.bytes.length ≤ Config.maxFrame := by
      simp only [wanted, log_rxLen] at hm ⊢
      omega
    rw [appendRx, if_pos hfit]
    trivial

/-! ## A step -/

/-- The first answer to the outstanding read of `s` breaks its contract. -/
def State.BrokenRead (s : State) (x : Refusal) : Prop :=
  (s.st = .sDrain ∨ s.st = .sRx) ∧ ∃ a rest, s.answers = a :: rest ∧ BreaksContract s.asked a x

theorem sessionStep_stopsOnly {s : State} (hs : Inv s) : (sessionStep s).StopsOnly s.BrokenRead := by
  unfold sessionStep
  cases hst : s.st with
  | sDisc => trivial
  | sIdle => trivial
  | sClosing => exact takeAnswer_stopsOnly fun a rest _ => closeAnswer_stopsOnly a _
  | sOpen => exact takeAnswer_stopsOnly fun a rest _ => openAnswer_stopsOnly a _
  | sDrain =>
    refine takeAnswer_stopsOnly fun a rest ha => drainAnswer_stopsOnly fun x hx => ⟨.inl hst, a, rest, ha, ?_⟩
    rwa [State.asked, if_pos hst]
  | sSettle => exact settleStep_stopsOnly s
  | sSyncFlush => exact takeAnswer_stopsOnly fun _ _ _ => trivial
  | sTx => exact takeAnswer_stopsOnly fun a rest _ => writeAnswer_stopsOnly a _
  | sRx =>
    obtain ⟨hlt, hle⟩ := hs.receive.1 hst
    refine takeAnswer_stopsOnly fun a rest ha =>
      readAnswer_stopsOnly hlt hle fun x hx => ⟨.inr hst, a, rest, ha, ?_⟩
    rwa [State.asked, if_neg (by simp [hst])]
  | sCheck => exact checkStep_stopsOnly hs.rxFits
  | sErrFlush => exact takeAnswer_stopsOnly fun _ _ _ => trivial

end

/-- A transition stops only at its own read's answer, which the engine is ready to take. -/
theorem transition_stopsOnly {s : State} (hs : Inv s) :
    (transition s).StopsOnly fun x => s.BrokenRead x ∧ s.aReady = true := by
  unfold transition
  split
  · trivial
  · rename_i hr
    split
    · split <;> trivial
    · split <;> trivial
    · unfold workStep
      split
      · exact payloadStep_stopsOnly s
      · rename_i hp
        split
        · exact callStep_stopsOnly s
        · rename_i hc
          have h := sessionStep_stopsOnly hs
          cases hx : sessionStep s with
          | moved t => trivial
          | blocked => trivial
          | fault f => rw [hx] at h; exact h
          | refused x =>
            rw [hx] at h
            refine ⟨h, ?_⟩
            obtain ⟨hst | hst, -⟩ := h <;>
              simp [State.aReady, State.callOutstanding, hst, SessionState.awaitsAnswer, hr, hp, hc]

/-- Settles O49: a reset and an acceptance go on; a transition stops only at its own read's answer. -/
theorem stepStopsOnlyOnABrokenReadAnswer : Obligations.StepStopsOnlyOnABrokenReadAnswer := by
  intro s hs
  unfold step
  split
  · exact .inl ⟨_, rfl⟩
  · split
    · rename_i hr
      refine .inl ?_
      split
      · exact ⟨_, rfl⟩
      · rename_i r _
        split
        · rename_i i _
          rw [exec_ready (s := consumeRecord s) hr]
          exact ((first_stopsOnly (P := fun _ => False) i _).outcome _).resolve_right fun ⟨_, _, h⟩ => h
        · exact ⟨_, rfl⟩
    · refine ((transition_stopsOnly hs).outcome s).imp_right ?_
      rintro ⟨x, hx, ⟨hst, a, rest, ha, hbreaks⟩, hready⟩
      exact ⟨x, a, rest, hx, hst, hready, ha, hbreaks⟩

end Sys2Proof.Machine
end

section
/-! PROOFS. What the parts of a transition leave unchanged, and where they leave the ports. Every event keeps the
command in execution and the reset input; the events of a payload transfer's end and of the session machine leave no
transport call outstanding and no value beat without its record (20_memory.md R74, 30_encoding.md R96). -/

namespace Sys2Proof.Machine

/-- What no event of a command in execution writes, short of its last delivery. -/
def State.held (s : State) : Option Instr × Bool := (s.cmd, s.rst)

/-- The three buffers (10 R35, R36, R38). -/
def State.buffers (s : State) : Memory 8 × Memory 8 × Memory 16 := (s.txbuf, s.rxbuf, s.vbuf)

/-- What an event that stores nothing keeps. -/
def State.kept (s : State) : (Option Instr × Bool) × (Memory 8 × Memory 8 × Memory 16) := (s.held, s.buffers)

theorem held_eq_iff {s t : State} : t.held = s.held ↔ t.cmd = s.cmd ∧ t.rst = s.rst := by
  simp [State.held]

theorem buffers_eq_iff {s t : State} :
    t.buffers = s.buffers ↔ t.txbuf = s.txbuf ∧ t.rxbuf = s.rxbuf ∧ t.vbuf = s.vbuf := by
  simp [State.buffers]

theorem kept_eq_iff {s t : State} : t.kept = s.kept ↔ t.held = s.held ∧ t.buffers = s.buffers := by
  simp [State.kept]

/-! ## What ends an event -/

section
variable {α : Type} {g : State → α}

/-- `g` does not see what the end of an event writes: `ST`, `ERR`, `EXC`, the call and the response offered. -/
def IgnoresEnd (g : State → α) : Prop :=
  ∀ s st err exc callWait rspOut rvOut,
    g { s with st := st, err := err, exc := exc, callWait := callWait, rspOut := rspOut, rvOut := rvOut } = g s

theorem IgnoresEnd.raise (hg : IgnoresEnd g) (e : Status) (c : Byte) (s : State) : g (raise e c s) = g s := by
  unfold Machine.raise
  split
  · exact hg s .sErrFlush e.code c true s.rspOut s.rvOut
  · exact hg s s.st s.err s.exc s.callWait (some ⟨e.code, c, 0⟩) []

theorem IgnoresEnd.afterBytes (hg : IgnoresEnd g) (s : State) : g (afterBytes s) = g s := by
  rcases afterBytes_cases s with ⟨n, -, -, h⟩ | ⟨n, -, -, -, h⟩ | ⟨-, -, h⟩ | ⟨-, -, h⟩ <;> rw [h]
  · exact hg.raise _ _ _
  · exact hg s .sCheck s.err s.exc s.callWait s.rspOut s.rvOut
  · exact hg.raise _ _ _
  · exact hg s s.st s.err s.exc true s.rspOut s.rvOut

theorem IgnoresEnd.finishValues (hg : IgnoresEnd g) (vs : List Half) (s : State) :
    g (finishValues vs s) = g s := by
  unfold Machine.finishValues
  split
  · exact hg s .sIdle s.err s.exc s.callWait (some ⟨Status.ok.code, 0, s.vLen.setWidth 16⟩) s.values
  · exact hg.raise _ _ _

theorem IgnoresEnd.finishEcho (hg : IgnoresEnd g) (count : Half) (s : State) :
    g (finishEcho count s) = g s := by
  unfold Machine.finishEcho
  split
  · exact hg s .sIdle s.err s.exc s.callWait (some ⟨Status.ok.code, 0, count⟩) []
  · exact hg.raise _ _ _

theorem IgnoresEnd.crcCheckAnswer (hg : IgnoresEnd g) {n : Nat} {good : Bool} {s t : State}
    (h : crcCheckAnswer n good s = .moved t) : g t = g s := by
  unfold Machine.crcCheckAnswer at h
  split at h
  · cases h
    exact hg.raise _ _ _
  · split at h
    · cases h
      exact hg s s.st s.err s.exc s.callWait (some ⟨Status.ok.code, 0, 1⟩) []
    · cases h
      exact hg.raise _ _ _

theorem ignoresEnd_held : IgnoresEnd State.held := fun _ _ _ _ _ _ _ => rfl

theorem ignoresEnd_kept : IgnoresEnd State.kept := fun _ _ _ _ _ _ _ => rfl

end

@[simp] theorem checkCrc_kept (b : List Byte) (s : State) : (checkCrc b s).kept = s.kept := by
  unfold checkCrc
  split <;> rfl

@[simp] theorem latchAttributes_kept (i : Option Instr) (s : State) : (latchAttributes i s).kept = s.kept := by
  unfold latchAttributes
  split <;> rfl

/-! ## The answers that store nothing -/

theorem closeAnswer_kept {a : Answer} {s t : State} (h : closeAnswer a s = .moved t) : t.kept = s.kept := by
  rcases closeAnswer_moved h with ⟨-, rfl⟩ | ⟨-, rfl⟩ <;> rfl

theorem openAnswer_kept {a : Answer} {s t : State} (h : openAnswer a s = .moved t) : t.kept = s.kept := by
  rcases openAnswer_moved h with ⟨-, rfl⟩ | ⟨-, rfl⟩
  · exact latchAttributes_kept _ _
  · exact ignoresEnd_kept.raise _ _ _

theorem drainAnswer_kept {a : Answer} {s t : State} (h : drainAnswer a s = .moved t) : t.kept = s.kept := by
  obtain ⟨-, -, ⟨-, rfl⟩ | ⟨-, rfl⟩⟩ := drainAnswer_moved h <;> rfl

theorem settleStep_kept {s t : State} (h : settleStep s = .moved t) : t.kept = s.kept := by
  rcases settleStep_moved h with ⟨-, rfl⟩ | ⟨-, -, rfl⟩ <;> rfl

theorem syncFlushAnswer_kept {a : Answer} {s t : State} (h : syncFlushAnswer a s = .moved t) :
    t.kept = s.kept := by
  cases h
  rfl

theorem writeAnswer_kept {a : Answer} {s t : State} (h : writeAnswer a s = .moved t) : t.kept = s.kept := by
  rcases writeAnswer_moved h with ⟨-, -, rfl⟩ | ⟨-, rfl⟩
  · rfl
  · exact ignoresEnd_kept.raise _ _ _

theorem failReturn_kept {a : Answer} {s t : State} (h : failReturn a s = .moved t) : t.kept = s.kept := by
  cases h
  rfl

/-- Outside the taking and the check of a response the session machine stores nothing. -/
theorem sessionStep_kept {s t : State} (hrx : s.st ≠ .sRx) (hcheck : s.st ≠ .sCheck)
    (h : sessionStep s = .moved t) : t.kept = s.kept := by
  have hrest : ∀ (u : State) rest, State.kept { u with answers := rest } = u.kept := fun _ _ => rfl
  rcases sessionStep_moved h with ⟨-, h⟩ | ⟨-, h⟩ | ⟨-, h⟩ | ⟨-, h⟩ | ⟨-, h⟩ | ⟨-, h⟩ | ⟨hst, -⟩ | ⟨hst, -⟩ | ⟨-, h⟩
  · exact takeAnswer_keeps hrest (fun _ _ _ => closeAnswer_kept) h
  · exact takeAnswer_keeps hrest (fun _ _ _ => openAnswer_kept) h
  · exact takeAnswer_keeps hrest (fun _ _ _ => drainAnswer_kept) h
  · exact settleStep_kept h
  · exact takeAnswer_keeps hrest (fun _ _ _ => syncFlushAnswer_kept) h
  · exact takeAnswer_keeps hrest (fun _ _ _ => writeAnswer_kept) h
  · exact absurd hst hrx
  · exact absurd hst hcheck
  · exact takeAnswer_keeps hrest (fun _ _ _ => failReturn_kept) h

/-! ## Every event keeps the command and the reset input -/

theorem readAnswer_held {a : Answer} {s t : State} (h : readAnswer a s = .moved t) : t.held = s.held := by
  obtain ⟨-, -, -, ⟨-, rfl⟩ | ⟨-, u, hu, rfl⟩⟩ := readAnswer_moved h
  · exact ignoresEnd_held.raise _ _ _
  · obtain ⟨-, rfl⟩ := appendRx_moved hu
    exact ignoresEnd_held.afterBytes _

theorem checkStep_held {s t : State} (h : checkStep s = .moved t) : t.held = s.held := by
  have hcrc : (checkCrc s.rx s).held = s.held := (kept_eq_iff.1 (checkCrc_kept _ _)).1
  obtain ⟨-, ⟨vs, u, -, hu, rfl⟩ | ⟨addr, count, -, rfl⟩ | ⟨e, -, rfl⟩⟩ := checkStep_moved h
  · obtain ⟨-, rfl⟩ := loadValues_moved hu
    exact (ignoresEnd_held.finishValues _ _).trans hcrc
  · exact (ignoresEnd_held.finishEcho _ _).trans hcrc
  · exact (ignoresEnd_held.raise _ _ _).trans hcrc

theorem sessionStep_held {s t : State} (h : sessionStep s = .moved t) : t.held = s.held := by
  by_cases hrx : s.st = .sRx
  · rw [sessionStep, hrx] at h
    exact takeAnswer_keeps (fun _ _ => rfl) (fun _ _ _ => readAnswer_held) h
  · by_cases hcheck : s.st = .sCheck
    · rw [sessionStep, hcheck] at h
      exact checkStep_held h
    · exact (kept_eq_iff.1 (sessionStep_kept hrx hcheck h)).1

theorem loadRequest_held {frame : List Byte} {s t : State} (h : loadRequest frame s = .moved t) :
    t.held = s.held := by
  obtain ⟨-, rfl⟩ := loadRequest_moved h
  rfl

theorem beginExchange_kept {slave : Byte} {s t : State} (h : beginExchange slave s = .moved t) :
    t.kept = s.kept := by
  rcases beginExchange_moved h with ⟨-, rfl⟩ | ⟨-, rfl⟩
  · rfl
  · exact ignoresEnd_kept.raise _ _ _

theorem beginExchange_held {slave : Byte} {s t : State} (h : beginExchange slave s = .moved t) :
    t.held = s.held :=
  (kept_eq_iff.1 (beginExchange_kept h)).1

theorem readRequest_held {k : ReadKind} {slave : Byte} {start : Half} {n : Nat} {s t : State}
    (h : readRequest k slave start n s = .moved t) : t.held = s.held := by
  rcases readRequest_moved h with ⟨-, rfl⟩ | ⟨-, u, hu, ht⟩
  · exact ignoresEnd_held.raise _ _ _
  · exact (beginExchange_held ht).trans (loadRequest_held hu :)

theorem writeRequest_held {slave : Byte} {start : Half} {n : Nat} {good : Bool} {s t : State}
    (h : writeRequest slave start n good s = .moved t) : t.held = s.held := by
  rcases writeRequest_moved h with ⟨-, rfl⟩ | ⟨-, -, rfl⟩ | ⟨-, -, u, hu, ht⟩
  · exact ignoresEnd_held.raise _ _ _
  · exact ignoresEnd_held.raise _ _ _
  · exact (beginExchange_held ht).trans (loadRequest_held hu :)

/-- What a command does first, once accepted. -/
theorem first_held {i : Instr} {s t : State} (h : Instr.first i s = .moved t) : t.held = s.held := by
  cases i with
  | readHolding slave start n => exact readRequest_held h
  | readInput slave start n => exact readRequest_held h
  | connect n baud databits parity stopbits => cases h; split <;> rfl
  | disconnect => cases h; split <;> rfl
  | _ => cases h; rfl

theorem takePayload_held {i : Instr} {n : Nat} {f : Bool → State → Progress} {s t : State}
    (hf : ∀ good u, f good u = .moved t → t.held = u.held) (h : takePayload i n f s = .moved t) :
    t.held = s.held := by
  rcases takePayload_moved h with ⟨-, beat, rest, -, rfl⟩ | ⟨-, h⟩
  · rfl
  · exact (hf _ _ h :)

theorem payloadStep_held {s t : State} (h : payloadStep s = .moved t) : t.held = s.held := by
  obtain ⟨i, n, -, -, ⟨slave, start, -, h⟩ | ⟨baud, databits, parity, stopbits, -, h⟩ | ⟨-, h⟩ | ⟨-, h⟩⟩ :=
    payloadStep_moved h
  · exact takePayload_held (fun _ _ => writeRequest_held) h
  · obtain ⟨-, beat, rest, -, rfl⟩ := forwardStep_moved h
    rfl
  · exact takePayload_held (fun _ _ h => by cases h; rfl) h
  · exact takePayload_held (fun _ _ h => ignoresEnd_held.crcCheckAnswer h) h

/-! ## Between two calls -/

/-- No transport call is outstanding, and a value beat to come has its record before it. -/
structure State.BetweenCalls (s : State) : Prop where
  call : s.callOutstanding = false
  beats : s.rspOut = none → s.rvOut = []

theorem raise_betweenCalls {s : State} {e : Status} {c : Byte}
    (h : s.callOutstanding = false ∨ s.st.inExchange = true) (hv : s.rvOut = []) : (raise e c s).BetweenCalls := by
  cases hx : s.st.inExchange with
  | true =>
    rw [raise_inExchange _ _ hx]
    exact ⟨rfl, fun _ => hv⟩
  | false =>
    rw [raise_outside _ _ hx]
    exact ⟨h.resolve_right (by simp [hx]), nofun⟩

theorem offerCall_betweenCalls {s : State} (hv : s.rvOut = []) : (offerCall s).BetweenCalls :=
  ⟨Bool.and_false _, fun _ => hv⟩

theorem respond_betweenCalls {s : State} {status exc : Byte} {result : Half} {values : List Half}
    (h : s.st.awaitsAnswer = false) : (respond status exc result values s).BetweenCalls :=
  ⟨by simp [State.callOutstanding, h], nofun⟩

@[simp] theorem latchAttributes_rvOut (i : Option Instr) (s : State) : (latchAttributes i s).rvOut = s.rvOut := by
  unfold latchAttributes
  split <;> rfl

@[simp] theorem checkCrc_st (b : List Byte) (s : State) : (checkCrc b s).st = s.st := by
  unfold checkCrc
  split <;> rfl

@[simp] theorem checkCrc_rvOut (b : List Byte) (s : State) : (checkCrc b s).rvOut = s.rvOut := by
  unfold checkCrc
  split <;> rfl

section
variable {s t : State}

theorem closeAnswer_betweenCalls {a : Answer} (h : closeAnswer a s = .moved t) (hv : s.rvOut = []) :
    t.BetweenCalls := by
  rcases closeAnswer_moved h with ⟨-, rfl⟩ | ⟨-, rfl⟩
  · exact offerCall_betweenCalls hv
  · exact respond_betweenCalls rfl

theorem openAnswer_betweenCalls {a : Answer} (h : openAnswer a s = .moved t) (hv : s.rvOut = []) :
    t.BetweenCalls := by
  rcases openAnswer_moved h with ⟨-, rfl⟩ | ⟨-, rfl⟩
  · exact offerCall_betweenCalls (by simpa using hv)
  · exact raise_betweenCalls (.inl rfl) hv

theorem drainAnswer_betweenCalls {a : Answer} (h : drainAnswer a s = .moved t) (hv : s.rvOut = []) :
    t.BetweenCalls := by
  obtain ⟨-, -, ⟨-, rfl⟩ | ⟨-, rfl⟩⟩ := drainAnswer_moved h
  · exact ⟨rfl, fun _ => hv⟩
  · exact offerCall_betweenCalls hv

theorem settleStep_betweenCalls (h : settleStep s = .moved t) (hst : s.st = .sSettle) (hv : s.rvOut = []) :
    t.BetweenCalls := by
  rcases settleStep_moved h with ⟨-, rfl⟩ | ⟨-, -, rfl⟩
  · exact offerCall_betweenCalls hv
  · exact ⟨by simp [State.callOutstanding, hst, SessionState.awaitsAnswer], fun _ => hv⟩

theorem syncFlushAnswer_betweenCalls {a : Answer} (h : syncFlushAnswer a s = .moved t) : t.BetweenCalls := by
  cases h
  exact respond_betweenCalls rfl

theorem writeAnswer_betweenCalls {a : Answer} (h : writeAnswer a s = .moved t) (hst : s.st = .sTx)
    (hv : s.rvOut = []) : t.BetweenCalls := by
  rcases writeAnswer_moved h with ⟨-, -, rfl⟩ | ⟨-, rfl⟩
  · exact offerCall_betweenCalls hv
  · exact raise_betweenCalls (.inr (by rw [log_st, hst]; rfl)) hv

theorem afterBytes_betweenCalls (hst : s.st = .sRx) (hv : s.rvOut = []) : (afterBytes s).BetweenCalls := by
  have hx : s.st.inExchange = true := by rw [hst]; rfl
  rcases afterBytes_cases s with ⟨n, -, -, h⟩ | ⟨n, -, -, -, h⟩ | ⟨-, -, h⟩ | ⟨-, -, h⟩ <;> rw [h]
  · exact raise_betweenCalls (.inr hx) hv
  · exact ⟨rfl, fun _ => hv⟩
  · exact raise_betweenCalls (.inr hx) hv
  · exact offerCall_betweenCalls hv

theorem readAnswer_betweenCalls {a : Answer} (h : readAnswer a s = .moved t) (hst : s.st = .sRx)
    (hv : s.rvOut = []) : t.BetweenCalls := by
  obtain ⟨-, -, -, ⟨-, rfl⟩ | ⟨-, u, hu, rfl⟩⟩ := readAnswer_moved h
  · exact raise_betweenCalls (.inr (by rw [log_st, hst]; rfl)) hv
  · obtain ⟨-, rfl⟩ := appendRx_moved hu
    exact afterBytes_betweenCalls hst hv

theorem finishValues_betweenCalls {vs : List Half} (hst : s.st = .sCheck) (hv : s.rvOut = []) :
    (finishValues vs s).BetweenCalls := by
  unfold finishValues
  split
  · exact respond_betweenCalls rfl
  · exact raise_betweenCalls (.inr (by rw [hst]; rfl)) hv

theorem finishEcho_betweenCalls {count : Half} (hst : s.st = .sCheck) (hv : s.rvOut = []) :
    (finishEcho count s).BetweenCalls := by
  unfold finishEcho
  split
  · exact respond_betweenCalls rfl
  · exact raise_betweenCalls (.inr (by rw [hst]; rfl)) hv

theorem checkStep_betweenCalls (h : checkStep s = .moved t) (hst : s.st = .sCheck) (hv : s.rvOut = []) :
    t.BetweenCalls := by
  have hst' : (checkCrc s.rx s).st = .sCheck := by rw [checkCrc_st, hst]
  have hv' : (checkCrc s.rx s).rvOut = [] := by rw [checkCrc_rvOut, hv]
  obtain ⟨-, ⟨vs, u, -, hu, rfl⟩ | ⟨addr, count, -, rfl⟩ | ⟨e, -, rfl⟩⟩ := checkStep_moved h
  · obtain ⟨-, rfl⟩ := loadValues_moved hu
    exact finishValues_betweenCalls hst' hv'
  · exact finishEcho_betweenCalls hst' hv'
  · exact raise_betweenCalls (.inr (by rw [hst']; rfl)) hv'

/-- An event of the session machine ends between two calls (42 R180). -/
theorem sessionStep_betweenCalls (h : sessionStep s = .moved t) (hv : s.rvOut = []) : t.BetweenCalls := by
  rcases sessionStep_moved h with ⟨hst, h⟩ | ⟨hst, h⟩ | ⟨hst, h⟩ | ⟨hst, h⟩ | ⟨hst, h⟩ | ⟨hst, h⟩ | ⟨hst, h⟩ |
    ⟨hst, h⟩ | ⟨hst, h⟩
  case inr.inr.inr.inl => exact settleStep_betweenCalls h hst hv
  case inr.inr.inr.inr.inr.inr.inr.inl => exact checkStep_betweenCalls h hst hv
  all_goals obtain ⟨a, rest, -, h⟩ := takeAnswer_moved h
  · exact closeAnswer_betweenCalls h hv
  · exact openAnswer_betweenCalls h hv
  · exact drainAnswer_betweenCalls h hv
  · exact syncFlushAnswer_betweenCalls h
  · exact writeAnswer_betweenCalls h hst hv
  · exact readAnswer_betweenCalls h hst hv
  · cases h
    exact respond_betweenCalls rfl

/-- The begin of an exchange is no call yet: its write is offered (42 R194). -/
theorem beginExchange_betweenCalls {slave : Byte} (h : beginExchange slave s = .moved t)
    (hc : s.callOutstanding = false) (hv : s.rvOut = []) : t.BetweenCalls := by
  rcases beginExchange_moved h with ⟨-, rfl⟩ | ⟨-, rfl⟩
  · exact offerCall_betweenCalls hv
  · exact raise_betweenCalls (.inl hc) hv

theorem readRequest_betweenCalls {k : ReadKind} {slave : Byte} {start : Half} {n : Nat}
    (h : readRequest k slave start n s = .moved t) (hc : s.callOutstanding = false) (hv : s.rvOut = []) :
    t.BetweenCalls := by
  rcases readRequest_moved h with ⟨-, rfl⟩ | ⟨-, u, hu, ht⟩
  · exact raise_betweenCalls (.inl hc) hv
  · obtain ⟨-, rfl⟩ := loadRequest_moved hu
    exact beginExchange_betweenCalls ht hc hv

theorem writeRequest_betweenCalls {slave : Byte} {start : Half} {n : Nat} {good : Bool}
    (h : writeRequest slave start n good s = .moved t) (hc : s.callOutstanding = false) (hv : s.rvOut = []) :
    t.BetweenCalls := by
  rcases writeRequest_moved h with ⟨-, rfl⟩ | ⟨-, -, rfl⟩ | ⟨-, -, u, hu, ht⟩
  · exact raise_betweenCalls (.inl hc) hv
  · exact raise_betweenCalls (.inl hc) hv
  · obtain ⟨-, rfl⟩ := loadRequest_moved hu
    exact beginExchange_betweenCalls ht hc hv

theorem crcCheckAnswer_betweenCalls {n : Nat} {good : Bool} (h : crcCheckAnswer n good s = .moved t)
    (hc : s.callOutstanding = false) (hv : s.rvOut = []) : t.BetweenCalls := by
  unfold crcCheckAnswer at h
  split at h
  · cases h
    exact raise_betweenCalls (.inl hc) hv
  · split at h
    · cases h
      exact ⟨hc, nofun⟩
    · cases h
      exact raise_betweenCalls (.inl hc) hv

/-- So does what a command does first in a rest state. -/
theorem first_betweenCalls {i : Instr} (h : Instr.first i s = .moved t) (hst : s.st.awaitsAnswer = false)
    (hv : s.rvOut = []) : t.BetweenCalls := by
  have hc : s.callOutstanding = false := by simp [State.callOutstanding, hst]
  cases i with
  | readHolding slave start n => exact readRequest_betweenCalls h hc hv
  | readInput slave start n => exact readRequest_betweenCalls h hc hv
  | connect n baud databits parity stopbits =>
    cases h
    split <;> exact offerCall_betweenCalls hv
  | disconnect =>
    cases h
    split
    · exact offerCall_betweenCalls hv
    · exact respond_betweenCalls hst
  | setTiming settle resp drain =>
    cases h
    exact respond_betweenCalls hst
  | _ =>
    cases h
    exact ⟨hc, fun _ => hv⟩

end

end Sys2Proof.Machine
end

section
/-! PROOFS. The states in which a payload is taken or a response is delivered (42_bus_session.md R180), and what a
payload transfer can do there. -/

namespace Sys2Proof.Machine

variable {s t : State}

/-- A payload is taken at rest, by a command that takes its payload there, or forwarded in `S_OPEN` (30 R92, 42
R182). -/
theorem Inv.st_of_plWait (hs : Inv s) (hp : s.plWait = true) :
    (s.st.isRest = true ∧ s.cmdIs Instr.payloadAtRest = true) ∨
      (s.st = .sOpen ∧ s.cmdIs Instr.isConnect = true) := by
  have h := hs.command
  cases hst : s.st <;> simp_all [State.commandAgrees, SessionState.isRest]

/-- A response is delivered in a rest state (42 R180). -/
theorem Inv.isRest_of_not_quiet (hs : Inv s) (hq : s.quiet = false) : s.st.isRest = true := by
  have h := hs.command
  cases hst : s.st <;> simp_all [State.commandAgrees, SessionState.isRest]

theorem isSome_of_cmdIs {p : Instr → Bool} (h : s.cmdIs p = true) : s.cmd.isSome = true := by
  cases hc : s.cmd with
  | none => rw [State.cmdIs, hc] at h; cases h
  | some i => rfl

/-- Whoever takes a payload or waits for an answer, a tick or the check is a command in execution: outside the rest
states the invariant asks for one. -/
theorem Inv.cmd_isSome (hs : Inv s) (h : s.plWait = true ∨ s.st.isRest = false) : s.cmd.isSome = true := by
  rcases h with hp | hrest
  · exact (hs.st_of_plWait hp).elim (fun h => isSome_of_cmdIs h.2) fun h => isSome_of_cmdIs h.2
  · have hc := hs.command
    cases hcmd : s.cmd with
    | some i => rfl
    | none => cases hst : s.st <;> simp_all [State.commandAgrees, State.cmdIs, SessionState.isRest]

theorem awaitsAnswer_of_isRest {x : SessionState} (h : x.isRest = true) : x.awaitsAnswer = false := by
  cases x <;> simp_all [SessionState.isRest, SessionState.awaitsAnswer]

theorem isRest_of_awaitsAnswer {x : SessionState} (h : x.awaitsAnswer = true) : x.isRest = false := by
  cases x <;> simp_all [SessionState.isRest, SessionState.awaitsAnswer]

theorem inExchange_of_isRest {x : SessionState} (h : x.isRest = true) : x.inExchange = false := by
  cases x <;> simp_all [SessionState.isRest, SessionState.inExchange]

theorem callOutstanding_of_isRest (h : s.st.isRest = true) : s.callOutstanding = false := by
  rw [State.callOutstanding, awaitsAnswer_of_isRest h, Bool.false_and]

/-- In a ready engine a reserved opcode is answered at once (60 R274). -/
theorem raise_of_cmdReady (hr : s.cmdReady = true) (e : Status) (c : Byte) (x : Event) :
    raise e c (log x (consumeRecord s)) = respond e.code c 0 [] (log x (consumeRecord s)) :=
  raise_outside _ _ (inExchange_of_isRest (isRest_of_cmdReady hr))

/-- A ready engine has no command and nothing to deliver (30 R90). -/
theorem quiet_of_cmdReady (h : s.cmdReady = true) : s.cmd = none ∧ s.rspOut = none ∧ s.rvOut = [] := by
  simp only [State.cmdReady, Bool.and_eq_true] at h
  obtain ⟨⟨hb, -⟩, -⟩ := h
  simpa [State.busy, State.quiet] using hb

/-! ## The end of a payload transfer -/

/-- The registers that say which handle is open (10 R25, R26). -/
def State.port (s : State) : Bool × Byte := (s.connOpen, s.handle)

theorem ignoresEnd_port : IgnoresEnd State.port := fun _ _ _ _ _ _ _ => rfl

theorem port_of_link (h : t.link = s.link) : t.port = s.port := by
  obtain ⟨hc, ha, -⟩ := link_eq_iff.1 h
  exact Prod.ext hc (congrArg Prod.fst ha)

/-- With its beats taken a command logs nothing, keeps the port and goes on between two calls. -/
structure PayloadEnds (s t : State) : Prop where
  trace : t.trace = s.trace
  port : t.port = s.port
  calls : t.BetweenCalls

theorem writeRequest_payloadEnds {slave : Byte} {start : Half} {n : Nat} {good : Bool}
    (h : writeRequest slave start n good s = .moved t) (hc : s.callOutstanding = false) (hv : s.rvOut = []) :
    PayloadEnds s t :=
  ⟨writeRequest_trace h, port_of_link (writeRequest_link h), writeRequest_betweenCalls h hc hv⟩

theorem crcAnswer_payloadEnds {good : Bool} (h : crcAnswer good s = .moved t) (hc : s.callOutstanding = false) :
    PayloadEnds s t := by
  cases h
  exact ⟨rfl, rfl, hc, nofun⟩

theorem crcCheckAnswer_payloadEnds {n : Nat} {good : Bool} (h : crcCheckAnswer n good s = .moved t)
    (hc : s.callOutstanding = false) (hv : s.rvOut = []) : PayloadEnds s t :=
  ⟨crcCheckAnswer_trace h, ignoresEnd_port.crcCheckAnswer h, crcCheckAnswer_betweenCalls h hc hv⟩

/-- A transfer at rest takes a beat, or ends. -/
theorem takePayload_cases {i : Instr} {n : Nat} {f : Bool → State → Progress} (h : takePayload i n f s = .moved t)
    (hf : ∀ good u, f good u = .moved t → u.callOutstanding = s.callOutstanding → u.rvOut = s.rvOut →
      PayloadEnds u t) :
    (∃ beat rest, t = takeBeat i beat rest s) ∨ PayloadEnds s t := by
  rcases takePayload_moved h with ⟨-, beat, rest, -, rfl⟩ | ⟨-, h⟩
  · exact .inl ⟨beat, rest, rfl⟩
  · obtain ⟨htrace, hport, hcalls⟩ := hf _ _ h rfl rfl
    exact .inr ⟨htrace, hport, hcalls⟩

/-- Everything a payload transfer can do, and where (30 R92, 42 R182). -/
theorem Inv.payloadStep_cases (hs : Inv s) (hp : s.plWait = true) (hv : s.rvOut = [])
    (h : payloadStep s = .moved t) :
    (s.st.isRest = true ∧ ((∃ i beat rest, t = takeBeat i beat rest s) ∨ PayloadEnds s t)) ∨
    (s.st = .sOpen ∧ ∃ n baud databits parity stopbits beat rest,
      s.cmd = some (.connect n baud databits parity stopbits) ∧ t = forwardByte n beat rest s) := by
  have hst := hs.st_of_plWait hp
  obtain ⟨i, n, hc, -, h⟩ := payloadStep_moved h
  simp only [State.cmdIs, hc, Option.any_some] at hst
  rcases h with ⟨slave, start, rfl, h⟩ | ⟨baud, databits, parity, stopbits, rfl, h⟩ | ⟨rfl, h⟩ | ⟨rfl, h⟩
  case inr.inl =>
    obtain ⟨-, beat, rest, -, rfl⟩ := forwardStep_moved h
    exact .inr ⟨(hst.resolve_left (fun h => nomatch h.2)).1, _, _, _, _, _, beat, rest, hc, rfl⟩
  all_goals
    have hrest := (hst.resolve_right (fun h => nomatch h.2)).1
    have hout := callOutstanding_of_isRest hrest
    refine .inl ⟨hrest, (takePayload_cases h fun good u h hu hw => ?_).imp_left fun h => ⟨_, h⟩⟩
  · exact writeRequest_payloadEnds h (hu.trans hout) (hw.trans hv)
  · exact crcAnswer_payloadEnds h (hu.trans hout)
  · exact crcCheckAnswer_payloadEnds h (hu.trans hout) (hw.trans hv)

end Sys2Proof.Machine
end

section
/-! PROOFS. The history is empty after reset, and a transport call that is not taken or not answered stops the engine
(20_memory.md R74, R81). -/

namespace Sys2Proof.Machine

/-- Settles O50: the empty history breaks no discipline, and nothing is open, in execution or written. -/
theorem disciplinesHoldAtReset : Obligations.DisciplinesHoldAtReset := ⟨rfl, rfl, .noWrite, rfl, rfl⟩

/-- With nothing to deliver and no payload to take, an engine in execution is as far as its call or its event. -/
theorem step_quiet {s : State} (hr : s.rst = false) (hq : s.quiet = true) (hst : s.st.isRest = false)
    (hp : s.plWait = false) :
    step s = (if s.callWait then callStep s else sessionStep s).outcome s := by
  have hready : s.cmdReady = false := by simp [State.cmdReady, hst]
  obtain ⟨ho, hv⟩ : s.rspOut = none ∧ s.rvOut = [] := by simpa [State.quiet] using hq
  rw [step_busy hr hready, transition_quiet hr ho hv, workStep, if_neg (by simp [hp])]

/-- A call the transport does not take is not issued (30 R98). -/
theorem callStep_not_ready {s : State} (h : s.tReady = false) : callStep s = .blocked := by
  rw [callStep, if_neg (by simp [h])]

/-- A call with no answer there goes unanswered (20 R81 a). -/
theorem sessionStep_unanswered {s : State} (hst : s.st.awaitsAnswer = true) (ha : s.answers = []) :
    sessionStep s = .blocked := by
  unfold sessionStep
  split
  case h_1 | h_2 => rfl
  case h_6 hx | h_10 hx => simp [hx, SessionState.awaitsAnswer] at hst
  all_goals exact takeAnswer_nil ha

/-- Settles O44: before the issue and after it the engine's next move is the transport's to allow. -/
theorem unansweredCallWaits : Obligations.UnansweredCallWaits := by
  intro s hr hq hst hp
  have hstep := step_quiet hr hq (isRest_of_awaitsAnswer hst) hp
  refine ⟨fun hc ht => ?_, fun hc ha => ?_⟩
  · rw [hstep, if_pos hc, callStep_not_ready ht]
    rfl
  · rw [hstep, if_neg (by simp [hc]), sessionStep_unanswered hst ha]
    rfl

end Sys2Proof.Machine
end

section
/-! PROOFS. The handle discipline (20_memory.md R80): a step either leaves the open handle and the port alone, or it
is the issue of a call, the answer to a close or an open, or a reset. -/

namespace Sys2Proof.Machine

variable {s t : State}

theorem HandlesKept.log {e : Event} (h : HandlesKept s) (ht : t.trace = s.trace ++ [e])
    (he : handleAfter (some s.ownedHandle) e = some t.ownedHandle) : HandlesKept t := by
  rw [HandlesKept, liveHandle, ht, List.foldl_append]
  exact (congrArg (handleAfter · e) h).trans he

theorem HandlesKept.of_eq (h : HandlesKept s) (ht : t.trace = s.trace) (ho : t.ownedHandle = s.ownedHandle) :
    HandlesKept t := by
  rw [HandlesKept, ht, ho]
  exact h

/-- Until its close is issued the handle of the Connection is open (20 R70). -/
theorem ownedHandle_eq (h : s.st = .sClosing → s.callWait = true) :
    s.ownedHandle = if s.connOpen then some s.handle else none := by
  by_cases hst : s.st = .sClosing
  · simp [State.ownedHandle, h hst]
  · simp [State.ownedHandle, hst]

/-- Between two calls no close is issued. -/
theorem State.BetweenCalls.closing (h : s.BetweenCalls) (hst : s.st = .sClosing) : s.callWait = true := by
  simpa [State.callOutstanding, hst, SessionState.awaitsAnswer] using h.call

theorem ownedHandle_of_port (hp : t.port = s.port) (hs : s.st ≠ .sClosing) (ht : t.BetweenCalls) :
    t.ownedHandle = s.ownedHandle := by
  obtain ⟨hc, hh⟩ := Prod.ext_iff.1 hp
  rw [ownedHandle_eq ht.closing, ownedHandle_eq fun h => absurd h hs]
  exact congrArg₂ (fun c x => if c then some x else none) hc hh

theorem ne_sClosing_of_isRest (h : s.st.isRest = true) : s.st ≠ .sClosing := by
  intro hst
  rw [hst] at h
  cases h

/-! ## The events of the session machine -/

/-- From `s` to `t` the port stays as it is, and what is logged leaves the open handle alone. -/
structure LeavesHandle (s t : State) : Prop where
  port : t.port = s.port
  trace : t.trace = s.trace ∨ ∃ e, t.trace = s.trace ++ [e] ∧ ∀ h, handleAfter (some h) e = some h

theorem HandlesKept.leave (h : HandlesKept s) (hl : LeavesHandle s t) (ho : t.ownedHandle = s.ownedHandle) :
    HandlesKept t := by
  rcases hl.trace with ht | ⟨e, ht, he⟩
  · exact h.of_eq ht ho
  · exact h.log ht (by rw [ho]; exact he _)

theorem drainAnswer_leavesHandle {a : Answer} (h : drainAnswer a s = .moved t) : LeavesHandle s t := by
  obtain ⟨-, -, ⟨-, rfl⟩ | ⟨-, rfl⟩⟩ := drainAnswer_moved h <;> exact ⟨rfl, .inr ⟨_, rfl, fun _ => rfl⟩⟩

theorem settleStep_leavesHandle (h : settleStep s = .moved t) : LeavesHandle s t := by
  rcases settleStep_moved h with ⟨-, rfl⟩ | ⟨-, -, rfl⟩
  · exact ⟨rfl, .inr ⟨_, rfl, fun _ => rfl⟩⟩
  · exact ⟨rfl, .inl rfl⟩

theorem syncFlushAnswer_leavesHandle {a : Answer} (h : syncFlushAnswer a s = .moved t) : LeavesHandle s t := by
  cases h
  exact ⟨rfl, .inr ⟨_, rfl, fun _ => rfl⟩⟩

/-- The answer to a write says nothing of the handle (20 R68). -/
theorem handleAfter_writeReply (a : Answer) (h : Option Byte) :
    handleAfter (some h) (.reply (writeReply a)) = some h := by
  unfold writeReply
  split <;> rfl

theorem writeAnswer_leavesHandle {a : Answer} (h : writeAnswer a s = .moved t) : LeavesHandle s t := by
  refine ⟨port_of_link (writeAnswer_link h), .inr ?_⟩
  rcases writeAnswer_moved h with ⟨-, -, rfl⟩ | ⟨-, rfl⟩
  · exact ⟨_, rfl, fun _ => rfl⟩
  · exact ⟨_, raise_trace _ _ _, handleAfter_writeReply a⟩

theorem readAnswer_leavesHandle {a : Answer} (h : readAnswer a s = .moved t) : LeavesHandle s t := by
  refine ⟨port_of_link (readAnswer_link h), .inr ?_⟩
  obtain ⟨-, -, -, ⟨-, rfl⟩ | ⟨-, u, hu, rfl⟩⟩ := readAnswer_moved h
  · exact ⟨_, raise_trace _ _ _, fun _ => rfl⟩
  · exact ⟨_, (afterBytes_trace _).trans (appendRx_trace hu), fun _ => rfl⟩

theorem checkStep_leavesHandle (h : checkStep s = .moved t) : LeavesHandle s t :=
  ⟨port_of_link (checkStep_link h), .inl (checkStep_trace h)⟩

theorem failReturn_leavesHandle {a : Answer} (h : failReturn a s = .moved t) : LeavesHandle s t := by
  cases h
  exact ⟨rfl, .inr ⟨_, rfl, fun _ => rfl⟩⟩

theorem takeAnswer_leavesHandle {f : Answer → State → Progress}
    (hf : ∀ a u t, f a u = .moved t → LeavesHandle u t) (h : takeAnswer f s = .moved t) : LeavesHandle s t := by
  obtain ⟨a, rest, -, h⟩ := takeAnswer_moved h
  obtain ⟨hport, htrace⟩ := hf _ _ _ h
  exact ⟨hport, htrace⟩

/-- Once the close is answered no handle is open, and none was (20 R70). -/
theorem HandlesKept.closeAnswer {a : Answer} (hk : HandlesKept s) (hst : s.st = .sClosing)
    (hc : s.callWait = false) (h : closeAnswer a s = .moved t) : HandlesKept t := by
  have hs : s.ownedHandle = none := by simp [State.ownedHandle, hst, hc]
  rcases closeAnswer_moved h with ⟨-, rfl⟩ | ⟨-, rfl⟩ <;> exact hk.log rfl (by rw [hs]; rfl)

/-- The answer to an open brings the handle, where none is open (20 R66). -/
theorem HandlesKept.openAnswer {a : Answer} (hk : HandlesKept s) (hconn : s.connOpen = false)
    (h : openAnswer a s = .moved t) : HandlesKept t := by
  have hs : s.ownedHandle = none := by simp [State.ownedHandle, hconn]
  rcases openAnswer_moved h with ⟨-, rfl⟩ | ⟨-, rfl⟩
  · refine hk.log (e := .reply (.opened a.handle)) (by simp) ?_
    rw [hs]
    unfold latchAttributes
    split <;> rfl
  · have ht : (raise .connectionError 0 (Machine.log (.reply .transportError) { s with st := .sDisc })).ownedHandle
        = none := by
      rw [raise_outside _ _ rfl]
      simp [State.ownedHandle, hconn]
    exact hk.log (e := .reply .transportError) (by simp) (by rw [hs, ht]; rfl)

theorem HandlesKept.sessionStep (hs : Inv s) (hk : HandlesKept s) (hv : s.rvOut = []) (hc : s.callWait = false)
    (h : sessionStep s = .moved t) : HandlesKept t := by
  have hconn := hs.conn
  have hleave (hst : s.st ≠ .sClosing) (hl : LeavesHandle s t) : HandlesKept t :=
    hk.leave hl (ownedHandle_of_port hl.port hst (sessionStep_betweenCalls h hv))
  rcases sessionStep_moved h with ⟨hst, h⟩ | ⟨hst, h⟩ | ⟨hst, h⟩ | ⟨hst, h⟩ | ⟨hst, h⟩ | ⟨hst, h⟩ | ⟨hst, h⟩ |
    ⟨hst, h⟩ | ⟨hst, h⟩ <;> rw [hst] at hconn
  · obtain ⟨a, rest, -, h⟩ := takeAnswer_moved h
    exact HandlesKept.closeAnswer (s := { s with answers := rest }) hk hst hc h
  · obtain ⟨a, rest, -, h⟩ := takeAnswer_moved h
    exact HandlesKept.openAnswer (s := { s with answers := rest }) hk hconn h
  · exact hleave (by simp [hst]) (takeAnswer_leavesHandle (fun _ _ _ => drainAnswer_leavesHandle) h)
  · exact hleave (by simp [hst]) (settleStep_leavesHandle h)
  · exact hleave (by simp [hst]) (takeAnswer_leavesHandle (fun _ _ _ => syncFlushAnswer_leavesHandle) h)
  · exact hleave (by simp [hst]) (takeAnswer_leavesHandle (fun _ _ _ => writeAnswer_leavesHandle) h)
  · exact hleave (by simp [hst]) (takeAnswer_leavesHandle (fun _ _ _ => readAnswer_leavesHandle) h)
  · exact hleave (by simp [hst]) (checkStep_leavesHandle h)
  · exact hleave (by simp [hst]) (takeAnswer_leavesHandle (fun _ _ _ => failReturn_leavesHandle) h)

/-! ## The other parts of a step -/

/-- A call uses the open handle; `T.open` is issued where none is open (42 R180, R24). -/
theorem HandlesKept.callStep (hs : Inv s) (hk : HandlesKept s) (hc : s.callWait = true)
    (h : callStep s = .moved t) : HandlesKept t := by
  obtain ⟨-, c, hp, rfl⟩ := callStep_moved h
  refine hk.log (issue_trace s c) ?_
  have hconn := hs.conn
  rw [ownedHandle_eq fun _ => hc]
  rcases portCall_eq_some hp with ⟨hst, rfl⟩ | ⟨hst, n, baud, databits, parity, stopbits, -, rfl⟩ | ⟨hst, rfl⟩ |
    ⟨hst, rfl⟩ | ⟨hst, rfl⟩ | ⟨hst, rfl⟩ | ⟨hst, rfl⟩ <;>
  · rw [hst] at hconn
    simp [State.ownedHandle, hst, hconn, SessionState.holdsConnection, handleAfter]

theorem HandlesKept.payloadStep (hs : Inv s) (hk : HandlesKept s) (hp : s.plWait = true) (hv : s.rvOut = [])
    (h : payloadStep s = .moved t) : HandlesKept t := by
  rcases hs.payloadStep_cases hp hv h with ⟨hst, ⟨i, beat, rest, rfl⟩ | ⟨htrace, hport, hcalls⟩⟩ |
    ⟨-, n, _, _, _, _, beat, rest, -, rfl⟩
  · exact hk.log (takeBeat_trace s i beat rest) rfl
  · exact hk.of_eq htrace (ownedHandle_of_port hport (ne_sClosing_of_isRest hst) hcalls)
  · exact hk.log (forwardByte_trace s n beat rest) rfl

theorem HandlesKept.transition (hs : Inv s) (hk : HandlesKept s) (h : transition s = .moved t) :
    HandlesKept t := by
  obtain ⟨-, ⟨r, -, -, rfl⟩ | ⟨v, rest, -, -, -, rfl⟩ | ⟨-, hv, hp, h⟩ | ⟨-, -, -, hc, h⟩ | ⟨-, hv, -, hc, h⟩⟩ :=
    transition_moved h
  · exact hk.log (deliver_trace s r) rfl
  · exact hk.log (deliverValue_trace s v rest) rfl
  · exact hk.payloadStep hs hp hv h
  · exact hk.callStep hs hc h
  · exact hk.sessionStep hs hv hc h

/-- What a command does first keeps the port: a close it begins is not yet issued. -/
theorem first_port {i : Instr} (h : Instr.first i s = .moved t) : t.port = s.port := by
  cases i with
  | readHolding slave start n => exact port_of_link (readRequest_link h)
  | readInput slave start n => exact port_of_link (readRequest_link h)
  | connect n baud databits parity stopbits => cases h; split <;> rfl
  | disconnect => cases h; split <;> rfl
  | _ => cases h; rfl

/-- Settles O51: a reset forgets the handle, an acceptance and a delivery leave it, a transition keeps the
discipline. -/
theorem stepKeepsTheHandleDiscipline : Obligations.StepKeepsTheHandleDiscipline := by
  intro s t hs hk h
  rcases step_next h with ⟨-, rfl⟩ | ⟨-, -, -, rfl⟩ | ⟨-, hr, r, rest, i, -, -, hf⟩ |
    ⟨-, hr, r, rest, e, -, -, rfl⟩ | ⟨-, -, -, rfl⟩ | ⟨-, -, h⟩
  · exact hk.log (e := .rst) rfl rfl
  · exact hk
  · have hst := isRest_of_cmdReady hr
    obtain ⟨-, -, hv⟩ := quiet_of_cmdReady hr
    have hcalls : t.BetweenCalls := first_betweenCalls hf (awaitsAnswer_of_isRest hst) hv
    have ho : t.ownedHandle = s.ownedHandle :=
      ownedHandle_of_port (first_port hf :) (ne_sClosing_of_isRest hst) hcalls
    exact hk.log (e := .cmd i) (by simp [first_trace hf]) (by rw [ho]; rfl)
  · rw [raise_of_cmdReady hr]
    exact hk.log (e := .reserved r.op) rfl rfl
  · exact hk
  · exact hk.transition hs h

end Sys2Proof.Machine
end

section
/-! PROOFS. The order of the ports (20_memory.md R74, 30_encoding.md R90, R95, R96, R98, R99): the phase the history
has reached is the one the engine's state says it is in, and each event a step logs leads from the phase of the old
state to that of the new one. -/

namespace Sys2Proof.Machine

variable {s t : State}

theorem PortsOrdered.log {e : Event} (h : PortsOrdered s) (ht : t.trace = s.trace ++ [e])
    (he : phaseAfter (some s.phase) e = some t.phase) : PortsOrdered t := by
  rw [PortsOrdered, portPhase, ht, List.foldl_append]
  exact (congrArg (phaseAfter · e) h).trans he

theorem PortsOrdered.of_eq (h : PortsOrdered s) (ht : t.trace = s.trace) (hp : t.phase = s.phase) :
    PortsOrdered t := by
  rw [PortsOrdered, ht, hp]
  exact h

/-! ## The phase of a state -/

theorem State.BetweenCalls.not_naming (h : s.BetweenCalls) : s.naming = false := by
  rw [State.naming, h.call, Bool.and_false]

theorem State.BetweenCalls.not_streaming (h : s.BetweenCalls) : ¬ (s.rspOut = none ∧ s.rvOut ≠ []) :=
  fun ⟨ho, hv⟩ => hv (h.beats ho)

theorem phase_busy (h : s.BetweenCalls) (hb : s.busy = true) : s.phase = .busy (s.cmdIs Instr.isRead) := by
  rw [State.phase, if_neg h.not_streaming, h.not_naming, h.call, hb]
  rfl

theorem phase_rest (h : s.BetweenCalls) (hb : s.busy = false) : s.phase = .rest := by
  rw [State.phase, if_neg h.not_streaming, h.not_naming, h.call, hb]
  rfl

theorem phase_outstanding (hv : s.rvOut = []) (hc : s.callOutstanding = true) (hp : s.plWait = false) :
    s.phase = .outstanding (s.cmdIs Instr.isRead) := by
  simp [State.phase, State.naming, hv, hc, hp]

theorem phase_naming (hv : s.rvOut = []) (hc : s.callOutstanding = true) (hp : s.plWait = true) :
    s.phase = .naming (s.cmdIs Instr.isRead) s.plLeft := by
  simp [State.phase, State.naming, hv, hc, hp]

/-- With a call out, the phase counts the bytes of the name still to come. -/
theorem phase_issued (hv : s.rvOut = []) (hc : s.callOutstanding = true) {n : Nat}
    (hp : s.plWait = decide (0 < n)) (hn : 0 < n → s.plLeft = n) :
    s.phase = PortPhase.issued (s.cmdIs Instr.isRead) n := by
  cases n with
  | zero => exact phase_outstanding hv hc hp
  | succ n => rw [phase_naming hv hc (by simpa using hp), hn n.succ_pos]; rfl

/-- With the record delivered, the phase counts the value beats still to come (30 R96). -/
theorem phase_delivered (ho : s.rspOut = none) (hc : s.callOutstanding = false) (hcmd : s.rvOut = [] → s.cmd = none) :
    s.phase = PortPhase.after s.rvOut.length := by
  cases hv : s.rvOut with
  | nil => exact phase_rest ⟨hc, fun _ => hv⟩ (by simp [State.busy, State.quiet, ho, hv, hcmd hv])
  | cons v rest => simp [State.phase, PortPhase.after, ho, hv]

theorem busy_of_cmd (h : s.cmd.isSome = true) : s.busy = true := by
  rw [State.busy, h, Bool.true_or]

theorem busy_of_rspOut {r : Response} (h : s.rspOut = some r) : s.busy = true := by
  simp [State.busy, State.quiet, h]

theorem callOutstanding_iff : s.callOutstanding = true ↔ s.st.awaitsAnswer = true ∧ s.callWait = false := by
  simp [State.callOutstanding]

theorem cmdIs_of_cmd (h : t.cmd = s.cmd) (p : Instr → Bool) : t.cmdIs p = s.cmdIs p := by
  rw [State.cmdIs, h]
  rfl

/-! ## A response -/

/-- The record is delivered, with as many value beats to come as it says. -/
theorem PortsOrdered.deliver {r : Response} (hs : Inv s) (hk : PortsOrdered s) (ho : s.rspOut = some r) :
    PortsOrdered (deliver r s) := by
  have hout := callOutstanding_of_isRest (hs.isRest_of_not_quiet (by simp [State.quiet, ho]))
  have hcalls : s.BetweenCalls := ⟨hout, fun h => nomatch h.symm.trans ho⟩
  refine hk.log (deliver_trace s r) ?_
  rw [phase_busy hcalls (busy_of_rspOut ho),
    phase_delivered (s := Machine.deliver r s) rfl hout fun hv => by rw [deliver_cmd]; exact if_pos hv]
  obtain ⟨-, hlen, -⟩ := hs.response r ho
  exact congrArg (fun n => some (PortPhase.after n)) hlen.symm

theorem PortsOrdered.deliverValue {v : Half} {rest : List Half} (hs : Inv s) (hk : PortsOrdered s)
    (ho : s.rspOut = none) (hv : s.rvOut = v :: rest) : PortsOrdered (deliverValue v rest s) := by
  have hout := callOutstanding_of_isRest (hs.isRest_of_not_quiet (by simp [State.quiet, hv]))
  refine hk.log (deliverValue_trace s v rest) ?_
  rw [phase_delivered (s := Machine.deliverValue v rest s) ho hout fun hv => by rw [deliverValue_cmd]; exact if_pos hv]
  simp [State.phase, phaseAfter, ho, hv]

/-! ## The payload -/

/-- At rest a beat is taken by the command in execution, which then goes on; in `S_OPEN` it is the next byte of the
name. -/
theorem PortsOrdered.payloadStep (hs : Inv s) (hk : PortsOrdered s) (hp : s.plWait = true) (hv : s.rvOut = [])
    (h : payloadStep s = .moved t) : PortsOrdered t := by
  have hcmd := hs.cmd_isSome (.inl hp)
  have hheld := (held_eq_iff.1 (payloadStep_held h)).1
  rcases hs.payloadStep_cases hp hv h with ⟨hst, ⟨i, beat, rest, rfl⟩ | ⟨htrace, -, hcalls⟩⟩ |
    ⟨hst, n, baud, databits, parity, stopbits, beat, rest, hc, rfl⟩
  · refine hk.log (takeBeat_trace s i beat rest) ?_
    have hcalls : s.BetweenCalls := ⟨callOutstanding_of_isRest hst, fun _ => hv⟩
    rw [phase_busy hcalls (busy_of_cmd hcmd),
      phase_busy (s := takeBeat i beat rest s) ⟨hcalls.call, hcalls.beats⟩ (busy_of_cmd hcmd)]
    rfl
  · have hcalls' : s.BetweenCalls := ⟨callOutstanding_of_isRest hst, fun _ => hv⟩
    refine hk.of_eq htrace ?_
    rw [phase_busy hcalls (busy_of_cmd (hheld ▸ hcmd)), phase_busy hcalls' (busy_of_cmd hcmd), cmdIs_of_cmd hheld]
  · have hout : s.callOutstanding = true :=
      callOutstanding_iff.2 ⟨by rw [hst]; rfl, hs.call.2 hst hp⟩
    have hleft : s.plLeft = n - s.plTaken := by simp [State.plLeft, hc, Instr.count?]
    refine hk.log (forwardByte_trace s n beat rest) ?_
    rw [phase_naming hv hout hp, phase_issued (s := forwardByte n beat rest s) (n := s.plLeft - 1) hv hout]
    · simp [phaseAfter, State.cmdIs]
    · rw [forwardByte_plWait, hleft, decide_eq_decide]
      omega
    · intro hpos
      rw [hleft] at hpos ⊢
      simp only [State.plLeft, forwardByte_cmd, hc, Instr.count?, forwardByte_plTaken]
      rw [if_pos (by omega)]
      omega

/-! ## A call and its answer -/

/-- What issuing the call leaves to forward is the name of a `T.open`. -/
theorem plLeft_of_nameLength {c : Call} (h : s.portCall = some c) (ht : s.plTaken = 0) (hn : 0 < c.nameLength) :
    s.plLeft = c.nameLength := by
  rcases portCall_eq_some h with ⟨-, rfl⟩ | ⟨-, n, baud, databits, parity, stopbits, hc, rfl⟩ | ⟨-, rfl⟩ |
    ⟨-, rfl⟩ | ⟨-, rfl⟩ | ⟨-, rfl⟩ | ⟨-, rfl⟩
  case inr.inl => simp [State.plLeft, hc, Instr.count?, ht, Call.nameLength]
  all_goals exact absurd hn (Nat.lt_irrefl 0)

theorem PortsOrdered.callStep (hs : Inv s) (hk : PortsOrdered s) (hp : s.plWait = false) (hv : s.rvOut = [])
    (hc : s.callWait = true) (h : callStep s = .moved t) : PortsOrdered t := by
  obtain ⟨-, c, hcall, rfl⟩ := callStep_moved h
  have hst := hs.call.1 hc
  have hcalls : s.BetweenCalls := ⟨by simp [State.callOutstanding, hc], fun _ => hv⟩
  refine hk.log (issue_trace s c) ?_
  rw [phase_busy hcalls (busy_of_cmd (hs.cmd_isSome (.inr (isRest_of_awaitsAnswer hst)))),
    phase_issued (s := issue c s) (n := c.nameLength) hv (callOutstanding_iff.2 ⟨hst, rfl⟩) rfl
      (plLeft_of_nameLength (s := s) hcall (hs.payload.1 hp).1)]
  rfl

/-- In a state that waits for an answer the session machine logs that answer; elsewhere nothing, or the end of the
settle wait (42 R180). -/
theorem sessionStep_logs (h : sessionStep s = .moved t) :
    (s.st.awaitsAnswer = true ∧ ∃ r, t.trace = s.trace ++ [.reply r]) ∨
    (s.st.awaitsAnswer = false ∧ s.st.isRest = false ∧
      (t.trace = s.trace ∨ ∃ n, t.trace = s.trace ++ [.wait n])) := by
  rcases sessionStep_moved h with ⟨hst, h⟩ | ⟨hst, h⟩ | ⟨hst, h⟩ | ⟨hst, h⟩ | ⟨hst, h⟩ | ⟨hst, h⟩ | ⟨hst, h⟩ |
    ⟨hst, h⟩ | ⟨hst, h⟩ <;> rw [hst]
  · exact .inl ⟨rfl, closeAnswer_logsReply.takeAnswer h⟩
  · exact .inl ⟨rfl, openAnswer_logsReply.takeAnswer h⟩
  · exact .inl ⟨rfl, drainAnswer_logsReply.takeAnswer h⟩
  · exact .inr ⟨rfl, rfl, settleStep_trace h⟩
  · exact .inl ⟨rfl, syncFlushAnswer_logsReply.takeAnswer h⟩
  · exact .inl ⟨rfl, writeAnswer_logsReply.takeAnswer h⟩
  · exact .inl ⟨rfl, readAnswer_logsReply.takeAnswer h⟩
  · exact .inr ⟨rfl, rfl, .inl (checkStep_trace h)⟩
  · exact .inl ⟨rfl, failReturn_logsReply.takeAnswer h⟩

theorem PortsOrdered.sessionStep (hs : Inv s) (hk : PortsOrdered s) (hp : s.plWait = false) (hv : s.rvOut = [])
    (hc : s.callWait = false) (h : sessionStep s = .moved t) : PortsOrdered t := by
  have hlogs := sessionStep_logs h
  have hrest : s.st.isRest = false := hlogs.elim (fun h => isRest_of_awaitsAnswer h.1) fun h => h.2.1
  have hcmd := hs.cmd_isSome (.inr hrest)
  have hheld := (held_eq_iff.1 (sessionStep_held h)).1
  have ht : t.phase = .busy (s.cmdIs Instr.isRead) := by
    rw [phase_busy (sessionStep_betweenCalls h hv) (busy_of_cmd (hheld ▸ hcmd)), cmdIs_of_cmd hheld]
  rcases hlogs with ⟨ha, r, htrace⟩ | ⟨ha, -, htrace⟩
  · refine hk.log htrace ?_
    rw [phase_outstanding hv (callOutstanding_iff.2 ⟨ha, hc⟩) hp, ht]
    rfl
  · have hphase : s.phase = .busy (s.cmdIs Instr.isRead) :=
      phase_busy ⟨by simp [State.callOutstanding, ha], fun _ => hv⟩ (busy_of_cmd hcmd)
    rcases htrace with htrace | ⟨n, htrace⟩
    · exact hk.of_eq htrace (ht.trans hphase.symm)
    · exact hk.log htrace (by rw [hphase, ht]; rfl)

theorem PortsOrdered.transition (hs : Inv s) (hk : PortsOrdered s) (h : transition s = .moved t) :
    PortsOrdered t := by
  obtain ⟨-, ⟨r, ho, -, rfl⟩ | ⟨v, rest, ho, hv, -, rfl⟩ | ⟨-, hv, hp, h⟩ | ⟨-, hv, hp, hc, h⟩ |
    ⟨-, hv, hp, hc, h⟩⟩ := transition_moved h
  · exact hk.deliver hs ho
  · exact hk.deliverValue hs ho hv
  · exact hk.payloadStep hs hp hv h
  · exact hk.callStep hs hp hv hc h
  · exact hk.sessionStep hs hp hv hc h

/-! ## A step -/

/-- A ready engine is at rest on the ports (30 R90). -/
theorem phase_of_cmdReady (hr : s.cmdReady = true) : s.phase = .rest := by
  obtain ⟨hcmd, ho, hv⟩ := quiet_of_cmdReady hr
  exact phase_rest ⟨callOutstanding_of_isRest (isRest_of_cmdReady hr), fun _ => hv⟩
    (by simp [State.busy, State.quiet, hcmd, ho, hv])

/-- An accepted command is in execution, and no call is out yet. -/
theorem phase_of_first {i : Instr} (hr : s.cmdReady = true)
    (h : Instr.first i (accept i (consumeRecord s)) = .moved t) : t.phase = .busy (Instr.isRead i) := by
  have hst := isRest_of_cmdReady hr
  obtain ⟨-, -, hv⟩ := quiet_of_cmdReady hr
  have hcmd : t.cmd = some i := (held_eq_iff.1 (first_held h)).1
  rw [phase_busy (first_betweenCalls h (awaitsAnswer_of_isRest hst) hv) (busy_of_cmd (by rw [hcmd]; rfl)),
    State.cmdIs, hcmd]
  rfl

/-- Settles O52: each event of a step leads from the phase of the old state to that of the new one. -/
theorem stepKeepsThePortOrder : Obligations.StepKeepsThePortOrder := by
  intro s t hs hk h
  rcases step_next h with ⟨-, rfl⟩ | ⟨-, -, -, rfl⟩ | ⟨-, hr, r, rest, i, -, -, hf⟩ |
    ⟨-, hr, r, rest, e, -, -, rfl⟩ | ⟨-, -, -, rfl⟩ | ⟨-, -, h⟩
  · exact hk.log (e := .rst) rfl rfl
  · exact hk
  · refine hk.log (e := .cmd i) (by simp [first_trace hf]) ?_
    rw [phase_of_cmdReady hr, phase_of_first hr hf]
    rfl
  · obtain ⟨hcmd, -, -⟩ := quiet_of_cmdReady hr
    rw [raise_of_cmdReady hr]
    refine hk.log (e := .reserved r.op) rfl ?_
    have hrest : (log (.reserved r.op) (consumeRecord s)).st.isRest = true := isRest_of_cmdReady hr
    rw [phase_of_cmdReady hr, phase_busy (respond_betweenCalls (awaitsAnswer_of_isRest hrest))
      (busy_of_rspOut (respond_rspOut _ _ _ _ _))]
    simp [phaseAfter, State.cmdIs, hcmd]
  · exact hk
  · exact hk.transition hs h

end Sys2Proof.Machine
end

section
/-! PROOFS. Where a step stores (20_memory.md R60; 10_state.md R35, R36, R38): a request from index 0 of `TXBUF`, the
bytes of an answer behind those of `RXBUF`, a value beat at its own index and the values of a response from index 0 of
`VBUF`; everything else keeps the buffers. -/

namespace Sys2Proof.Machine

variable {i : Instr} {s t : State}

/-! ## What each command may store -/

theorem StoresOnly.of_buffers_eq (h : t.buffers = s.buffers) : StoresOnly i s t := by
  obtain ⟨htx, hrx, hv⟩ := buffers_eq_iff.1 h
  simp only [StoresOnly, htx, hrx, hv, implies_true, and_self]

theorem StoresOnly.of_kept_eq (h : t.kept = s.kept) : StoresOnly i s t := .of_buffers_eq (kept_eq_iff.1 h).2

/-- What the two reads may store (43 R231, R232). -/
theorem storesOnly_read {k : ReadKind} {slave : Byte} {start : Half} {n : Nat} :
    StoresOnly (k.command slave start n) s t ↔
      (∀ a, 8 ≤ a → t.txbuf.read a = s.txbuf.read a) ∧
      (∀ a, a < s.rxLen.toNat ∨ t.rxLen.toNat ≤ a → t.rxbuf.read a = s.rxbuf.read a) ∧
      (∀ a, (t.rxLen.toNat - 5) / 2 ≤ a → t.vbuf.read a = s.vbuf.read a) := by
  refine ⟨fun h => h.1 k slave start n rfl, fun h => ⟨fun _ _ _ _ _ => h, ?_, ?_⟩⟩
  · cases k <;> exact fun _ _ _ h => nomatch h
  · cases k <;> exact fun h => nomatch h

/-- What a write may store (43 R233). -/
theorem storesOnly_write {slave : Byte} {start : Half} {n : Nat} :
    StoresOnly (.writeHolding slave start n) s t ↔
      (∀ a, 9 + 2 * n ≤ a → t.txbuf.read a = s.txbuf.read a) ∧
      (∀ a, a < s.rxLen.toNat ∨ t.rxLen.toNat ≤ a → t.rxbuf.read a = s.rxbuf.read a) ∧
      (∀ a, n ≤ a → t.vbuf.read a = s.vbuf.read a) := by
  refine ⟨fun h => h.2.1 slave start n rfl, fun h => ⟨?_, ?_, fun h => nomatch h⟩⟩
  · rintro (_ | _) _ _ _ h <;> cases h
  · rintro _ _ _ ⟨⟩
    exact h

/-- A register command may store the bytes of a response. -/
theorem StoresOnly.of_rxbuf (hi : Instr.isRegister i = true) (htx : t.txbuf = s.txbuf) (hv : t.vbuf = s.vbuf)
    (hrx : ∀ a, a < s.rxLen.toNat ∨ t.rxLen.toNat ≤ a → t.rxbuf.read a = s.rxbuf.read a) : StoresOnly i s t := by
  simp only [StoresOnly, htx, hv, hi, implies_true, true_and, and_true, reduceCtorEq, false_implies]
  exact ⟨fun _ _ _ _ _ => hrx, fun _ _ _ _ => hrx⟩

/-! ## A request -/

/-- A request is stored from index 0 of `TXBUF` (41 R150, R151); behind it, and in the other buffers, nothing is. -/
theorem buffers_of_request {frame : List Byte} {slave : Byte} {u : State} (hu : loadRequest frame s = .moved u)
    (h : beginExchange slave u = .moved t) :
    (∀ a, frame.length ≤ a → t.txbuf.read a = s.txbuf.read a) ∧ t.rxbuf = s.rxbuf ∧ t.vbuf = s.vbuf := by
  obtain ⟨-, rfl⟩ := loadRequest_moved hu
  obtain ⟨htx, hrx, hv⟩ := buffers_eq_iff.1 (kept_eq_iff.1 (beginExchange_kept h)).2
  exact ⟨fun a ha => htx ▸ Memory.read_writeFrom_outside _ _ _ _ (.inr (by omega)), hrx, hv⟩

theorem readRequest_storesOnly {k : ReadKind} {slave : Byte} {start : Half} {n : Nat}
    (h : readRequest k slave start n s = .moved t) : StoresOnly (k.command slave start n) s t := by
  rcases readRequest_moved h with ⟨-, rfl⟩ | ⟨-, u, hu, ht⟩
  · exact .of_kept_eq (ignoresEnd_kept.raise _ _ _)
  · obtain ⟨htx, hrx, hv⟩ := buffers_of_request hu ht
    exact storesOnly_read.2 ⟨htx, fun _ _ => by rw [hrx], fun _ _ => by rw [hv]⟩

theorem writeRequest_storesOnly {slave : Byte} {start : Half} {n : Nat} {good : Bool}
    (h : writeRequest slave start n good s = .moved t) : StoresOnly (.writeHolding slave start n) s t := by
  rcases writeRequest_moved h with ⟨-, rfl⟩ | ⟨-, -, rfl⟩ | ⟨-, -, u, hu, ht⟩
  · exact .of_kept_eq (ignoresEnd_kept.raise _ _ _)
  · exact .of_kept_eq (ignoresEnd_kept.raise _ _ _)
  · obtain ⟨htx, hrx, hv⟩ := buffers_of_request hu ht
    rw [encodeWrite_length, Memory.length_readFrom] at htx
    exact storesOnly_write.2 ⟨htx, fun _ _ => by rw [hrx], fun _ _ => by rw [hv]⟩

/-- What a command does first, once accepted. -/
theorem first_storesOnly (h : Instr.first i (accept i s) = .moved t) : StoresOnly i s t := by
  cases i with
  | readHolding slave start n => exact (readRequest_storesOnly (k := .holding) h :)
  | readInput slave start n => exact (readRequest_storesOnly (k := .input) h :)
  | connect n baud databits parity stopbits => cases h; exact .of_buffers_eq (by split <;> rfl)
  | disconnect => cases h; exact .of_buffers_eq (by split <;> rfl)
  | _ => cases h; exact .of_buffers_eq rfl

/-! ## The payload -/

/-- A beat of a write is a value, stored at its own index if at all; no other beat is stored. -/
theorem takeBeat_storesOnly {n : Nat} (hn : i.count? = some n) (hlt : s.plTaken < n) (beat : Word)
    (rest : List Word) : StoresOnly i s (takeBeat i beat rest s) := by
  rcases beatStore_cases i s.plTaken beat s.plGood s.vbuf with h | ⟨slave, start, m, rfl, -, -, -, h⟩
  · exact .of_buffers_eq (buffers_eq_iff.2 ⟨rfl, rfl, h⟩)
  · obtain rfl : m = n := Option.some.inj hn
    refine storesOnly_write.2 ⟨fun _ _ => rfl, fun _ _ => rfl, fun a ha => ?_⟩
    rw [takeBeat_vbuf, h]
    exact Memory.read_write_of_ne _ _ _ _ (by omega)

theorem takePayload_storesOnly {n : Nat} {f : Bool → State → Progress} (hn : i.count? = some n)
    (hf : ∀ good u, f good u = .moved t → StoresOnly i u t) (h : takePayload i n f s = .moved t) :
    StoresOnly i s t := by
  rcases takePayload_moved h with ⟨hlt, beat, rest, -, rfl⟩ | ⟨-, h⟩
  · exact takeBeat_storesOnly hn hlt beat rest
  · exact (hf _ _ h :)

theorem payloadStep_storesOnly (hc : s.cmd = some i) (h : payloadStep s = .moved t) : StoresOnly i s t := by
  obtain ⟨j, n, hj, hn, h⟩ := payloadStep_moved h
  obtain rfl : i = j := Option.some.inj (hc.symm.trans hj)
  rcases h with ⟨slave, start, rfl, h⟩ | ⟨baud, databits, parity, stopbits, rfl, h⟩ | ⟨rfl, h⟩ | ⟨rfl, h⟩
  · exact takePayload_storesOnly hn (fun _ _ => writeRequest_storesOnly) h
  · obtain ⟨-, beat, rest, -, rfl⟩ := forwardStep_moved h
    exact .of_buffers_eq rfl
  · exact takePayload_storesOnly hn (fun _ _ h => by cases h; exact .of_buffers_eq rfl) h
  · exact takePayload_storesOnly hn (fun _ _ h => .of_kept_eq (ignoresEnd_kept.crcCheckAnswer h)) h

/-! ## A response -/

/-- The buffers and how much of `RXBUF` is the response. -/
def State.stored (s : State) : (Memory 8 × Memory 8 × Memory 16) × BitVec 9 := (s.buffers, s.rxLen)

theorem ignoresEnd_stored : IgnoresEnd State.stored := fun _ _ _ _ _ _ _ => rfl

theorem stored_eq_iff {tx rx : Memory 8} {v : Memory 16} {n : BitVec 9} :
    t.stored = ((tx, rx, v), n) ↔ t.txbuf = tx ∧ t.rxbuf = rx ∧ t.vbuf = v ∧ t.rxLen = n := by
  simp [State.stored, State.buffers, and_assoc]

/-- The bytes of an answer are stored behind those received before (42 R196). -/
theorem readAnswer_storesOnly {a : Answer} (hi : Instr.isRegister i = true) (h : readAnswer a s = .moved t) :
    StoresOnly i s t := by
  obtain ⟨-, -, -, ⟨-, rfl⟩ | ⟨-, u, hu, rfl⟩⟩ := readAnswer_moved h
  · exact .of_kept_eq (ignoresEnd_kept.raise _ _ _)
  · obtain ⟨hfit, rfl⟩ := appendRx_moved hu
    obtain ⟨htx, hrx, hv, hlen⟩ := stored_eq_iff.1 (ignoresEnd_stored.afterBytes _)
    refine .of_rxbuf hi htx hv fun b hb => ?_
    have hmax : Config.maxFrame = 256 := rfl
    rw [hlen, BitVec.toNat_ofNat, Nat.mod_eq_of_lt (by omega)] at hb
    rw [hrx]
    exact Memory.read_writeFrom_outside _ _ _ _ hb

/-- Of the frames checked only one with values is stored, in `VBUF`. -/
theorem checkStep_stored (h : checkStep s = .moved t) :
    t.kept = s.kept ∨ ∃ vs, decodeFrame s.rx s.slave s.expFc = .values vs ∧
      t.stored = ((s.txbuf, s.rxbuf, s.vbuf.writeFrom 0 vs), s.rxLen) := by
  obtain ⟨-, ⟨vs, u, hd, hu, rfl⟩ | ⟨addr, count, -, rfl⟩ | ⟨e, -, rfl⟩⟩ := checkStep_moved h
  · obtain ⟨-, rfl⟩ := loadValues_moved hu
    refine .inr ⟨vs, hd, (ignoresEnd_stored.finishValues _ _).trans ?_⟩
    unfold checkCrc
    split <;> rfl
  · exact .inl ((ignoresEnd_kept.finishEcho _ _).trans (checkCrc_kept _ _))
  · exact .inl ((ignoresEnd_kept.raise _ _ _).trans (checkCrc_kept _ _))

/-- A register command that does not expect the echo of a write is a read (43 R231 to R233). -/
theorem exists_command_of_opcode_ne (hi : Instr.isRegister i = true) (hop : i.opcode ≠ Config.fcWriteHolding) :
    ∃ (k : ReadKind) (slave : Byte) (start : Half) (n : Nat), i = k.command slave start n := by
  cases i with
  | readHolding slave start n => exact ⟨.holding, slave, start, n, rfl⟩
  | readInput slave start n => exact ⟨.input, slave, start, n, rfl⟩
  | writeHolding slave start n => exact absurd rfl hop
  | _ => cases hi

/-- The values of a response are as many as its length has room for, and belong to a read (41 R159). -/
theorem checkStep_storesOnly (hs : Inv s) (hc : s.cmd = some i) (hst : s.st = .sCheck)
    (h : checkStep s = .moved t) : StoresOnly i s t := by
  rcases checkStep_stored h with h | ⟨vs, hd, h⟩
  · exact .of_kept_eq h
  · obtain ⟨hfc, hlen⟩ := decodeFrame_values hd
    rw [(hs.expected (by rw [hst]; rfl)).1, (hs.opcode i hc).2] at hfc
    obtain ⟨k, slave, start, n, rfl⟩ :=
      exists_command_of_opcode_ne (hs.isRegister_of_st hc (.inr (.inr (.inl hst)))) hfc
    obtain ⟨htx, hrx, hv, hrxLen⟩ := stored_eq_iff.1 h
    refine storesOnly_read.2 ⟨fun _ _ => by rw [htx], fun _ _ => by rw [hrx], fun a ha => ?_⟩
    rw [hrxLen, ← s.length_rx, ← hlen] at ha
    rw [hv]
    exact Memory.read_writeFrom_outside _ _ _ _ (.inr (by omega))

/-! ## A step -/

theorem sessionStep_storesOnly (hs : Inv s) (hc : s.cmd = some i) (h : sessionStep s = .moved t) :
    StoresOnly i s t := by
  by_cases hrx : s.st = .sRx
  · rw [sessionStep, hrx] at h
    obtain ⟨a, rest, -, h⟩ := takeAnswer_moved h
    exact (readAnswer_storesOnly (hs.isRegister_of_st hc (.inr (.inl hrx))) h :)
  · by_cases hcheck : s.st = .sCheck
    · rw [sessionStep, hcheck] at h
      exact checkStep_storesOnly hs hc hcheck h
    · exact .of_kept_eq (sessionStep_kept hrx hcheck h)

/-- Every transition of a command in execution stores what that command may. -/
theorem transition_storesOnly (hs : Inv s) (hc : s.cmd = some i) (h : transition s = .moved t) :
    StoresOnly i s t := by
  obtain ⟨-, ⟨r, -, -, rfl⟩ | ⟨v, rest, -, -, -, rfl⟩ | ⟨-, -, -, h⟩ | ⟨-, -, -, -, h⟩ | ⟨-, -, -, -, h⟩⟩ :=
    transition_moved h
  · exact .of_buffers_eq rfl
  · exact .of_buffers_eq rfl
  · exact payloadStep_storesOnly hc h
  · obtain ⟨-, c, -, rfl⟩ := callStep_moved h
    exact .of_buffers_eq rfl
  · exact sessionStep_storesOnly hs hc h

/-- A step of an engine with a command in execution waits, or is a transition. -/
theorem step_of_cmd (hr : s.rst = false) (hc : s.cmd = some i) (h : step s = .next t) :
    t = s ∨ transition s = .moved t := by
  rw [step_busy hr (cmdReady_of_cmd hc)] at h
  cases hp : transition s with
  | moved u => rw [hp] at h; cases h; exact .inr rfl
  | blocked => rw [hp] at h; cases h; exact .inl rfl
  | fault e => rw [hp] at h; cases h
  | refused e => rw [hp] at h; cases h

/-- Settles O57: at acceptance by the command's first act, later by the transition the command makes. -/
theorem storesStayInsideTheFrames : Obligations.StoresStayInsideTheFrames := by
  refine ⟨fun i s t _ _ _ h => ?_, fun i s t hs hr hc h => ?_⟩
  · rcases exec_next h with ⟨-, rfl⟩ | ⟨-, h⟩
    · exact .of_buffers_eq rfl
    · exact first_storesOnly h
  · rcases step_of_cmd hr hc h with rfl | h
    · exact .of_buffers_eq rfl
    · exact transition_storesOnly hs hc h

end Sys2Proof.Machine
end

section
/-! PROOFS. Inputs that arrive later (20_memory.md R74, R75; 42_bus_session.md R188). The engine takes its inputs from
the front of what is there, so every part of a transition that moves makes the same move with more inputs behind those
there, and these stay behind. -/

namespace Sys2Proof.Machine

/-- Inputs that arrive later: command records, payload beats, answers and ticks. -/
structure LaterInputs where
  records : List CmdRecord
  beats : List Word
  answers : List Answer
  ticks : Nat

/-- `s` with the inputs `x` behind those there. -/
def State.later (s : State) (x : LaterInputs) : State := s.withMore x.records x.beats x.answers x.ticks

/-- Where `p` moves, `p'` makes the same move with the inputs `x` behind those there. -/
inductive Progress.CarriesOver (x : LaterInputs) : Progress → Progress → Prop where
  | moved {t t' : State} (h : t' = t.later x) : Progress.CarriesOver x (.moved t) (.moved t')
  | blocked (p : Progress) : Progress.CarriesOver x .blocked p
  | fault (f : Fault) (p : Progress) : Progress.CarriesOver x (.fault f) p
  | refused (r : Refusal) (p : Progress) : Progress.CarriesOver x (.refused r) p

section
variable {x : LaterInputs} {s t : State}

theorem Progress.CarriesOver.eq_moved {p p' : Progress} (h : Progress.CarriesOver x p p') (hp : p = .moved t) :
    p' = .moved (t.later x) := by
  cases h with
  | moved h => cases hp; rw [h]
  | _ => cases hp

theorem Progress.CarriesOver.andThen {p p' : Progress} {f : State → Progress} (h : Progress.CarriesOver x p p')
    (hf : ∀ u : State, Progress.CarriesOver x (f u) (f (u.later x))) :
    Progress.CarriesOver x (p.andThen f) (p'.andThen f) := by
  cases h with
  | moved h => subst h; exact hf _
  | blocked p => exact .blocked _
  | fault f p => exact .fault f _
  | refused r p => exact .refused r _

theorem Progress.CarriesOver.checkedRead {p p' : Progress} (h : Progress.CarriesOver x p p') (m : Nat) (a : Answer) :
    Progress.CarriesOver x (checkedRead m a p) (checkedRead m a p') :=
  ite_rel Iff.rfl (fun _ => .refused _ _) fun _ => ite_rel Iff.rfl (fun _ => .refused _ _) fun _ => h

/-! ## What sees no input -/

theorem ite_later {c : Prop} [Decidable c] {u v u' v' : State} (hu : u' = u.later x) (hv : v' = v.later x) :
    (if c then u' else v') = State.later (if c then u else v) x :=
  ite_rel (R := fun (w' w : State) => w' = w.later x) Iff.rfl (fun _ => hu) fun _ => hv

theorem raise_later (e : Status) (c : Byte) (s : State) : raise e c (s.later x) = (raise e c s).later x :=
  ite_later rfl rfl

theorem latchAttributes_later (i : Option Instr) (s : State) :
    latchAttributes i (s.later x) = (latchAttributes i s).later x := by
  unfold latchAttributes
  split <;> rfl

theorem checkCrc_later (b : List Byte) (s : State) : checkCrc b (s.later x) = (checkCrc b s).later x :=
  ite_later rfl rfl

theorem afterBytes_later (s : State) : afterBytes (s.later x) = (afterBytes s).later x := by
  have hmore : (if s.rem = 0 then raise .transportTimeout 0 (s.later x) else offerCall (s.later x)) =
      State.later (if s.rem = 0 then raise .transportTimeout 0 s else offerCall s) x :=
    ite_later (raise_later _ _ s) rfl
  have hrx : (s.later x).rx = s.rx := rfl
  unfold afterBytes
  rw [hrx]
  cases flen s.rx with
  | none => exact hmore
  | some n =>
    exact ite_later (raise_later _ _ s) (ite_later rfl hmore)

theorem finishValues_later (vs : List Half) (s : State) :
    finishValues vs (s.later x) = (finishValues vs s).later x :=
  ite_later rfl (raise_later _ _ s)

theorem finishEcho_later (count : Half) (s : State) :
    finishEcho count (s.later x) = (finishEcho count s).later x :=
  ite_later rfl (raise_later _ _ s)

theorem loadRequest_carriesOver (frame : List Byte) (s : State) :
    Progress.CarriesOver x (loadRequest frame s) (loadRequest frame (s.later x)) :=
  ite_rel Iff.rfl (fun _ => .moved rfl) fun _ => .fault _ _

theorem beginExchange_carriesOver (slave : Byte) (s : State) :
    Progress.CarriesOver x (beginExchange slave s) (beginExchange slave (s.later x)) :=
  ite_rel Iff.rfl (fun _ => .moved rfl) fun _ => .moved (raise_later _ _ s)

theorem readRequest_carriesOver (k : ReadKind) (slave : Byte) (start : Half) (n : Nat) (s : State) :
    Progress.CarriesOver x (readRequest k slave start n s) (readRequest k slave start n (s.later x)) :=
  ite_rel Iff.rfl (fun _ => .moved (raise_later _ _ s)) fun _ =>
    (loadRequest_carriesOver _ _).andThen (beginExchange_carriesOver slave)

theorem writeRequest_carriesOver (slave : Byte) (start : Half) (n : Nat) (good : Bool) (s : State) :
    Progress.CarriesOver x (writeRequest slave start n good s) (writeRequest slave start n good (s.later x)) :=
  ite_rel Iff.rfl (fun _ => .moved (raise_later _ _ s)) fun _ =>
    ite_rel Iff.rfl
      (fun _ => (loadRequest_carriesOver _ _).andThen (beginExchange_carriesOver slave))
      fun _ => .moved (raise_later _ _ s)

theorem crcCheckAnswer_carriesOver (n : Nat) (good : Bool) (s : State) :
    Progress.CarriesOver x (crcCheckAnswer n good s) (crcCheckAnswer n good (s.later x)) :=
  ite_rel Iff.rfl (fun _ => .moved (raise_later _ _ s)) fun _ =>
    ite_rel Iff.rfl (fun _ => .moved rfl) fun _ => .moved (raise_later _ _ s)

/-- What a command does first, once accepted. -/
theorem first_carriesOver (i : Instr) (s : State) :
    Progress.CarriesOver x (Instr.first i s) (Instr.first i (s.later x)) := by
  cases i with
  | readHolding slave start n => exact readRequest_carriesOver _ _ _ _ s
  | readInput slave start n => exact readRequest_carriesOver _ _ _ _ s
  | connect n baud databits parity stopbits =>
    exact .moved (ite_later rfl rfl)
  | disconnect => exact .moved (ite_later rfl rfl)
  | _ => exact .moved rfl

theorem callStep_carriesOver (s : State) : Progress.CarriesOver x (callStep s) (callStep (s.later x)) := by
  have hcall : (s.later x).portCall = s.portCall := rfl
  refine ite_rel Iff.rfl (fun _ => ?_) fun _ => .blocked _
  rw [hcall]
  split
  · exact .moved rfl
  · exact .blocked _

theorem loadValues_carriesOver (vs : List Half) (s : State) :
    Progress.CarriesOver x (loadValues vs s) (loadValues vs (s.later x)) :=
  ite_rel Iff.rfl (fun _ => .moved rfl) fun _ => .fault _ _

theorem appendRx_carriesOver (bytes : List Byte) (s : State) :
    Progress.CarriesOver x (appendRx bytes s) (appendRx bytes (s.later x)) :=
  ite_rel Iff.rfl (fun _ => .moved rfl) fun _ => .fault _ _

theorem checkStep_carriesOver (s : State) : Progress.CarriesOver x (checkStep s) (checkStep (s.later x)) := by
  have hrx : (s.later x).rx = s.rx := rfl
  have hd : decodeFrame s.rx (s.later x).slave (s.later x).expFc = decodeFrame s.rx s.slave s.expFc := rfl
  refine ite_rel Iff.rfl (fun _ => .fault _ _) fun _ => ?_
  rw [hrx, checkCrc_later, hd]
  cases decodeFrame s.rx s.slave s.expFc with
  | values vs => exact (loadValues_carriesOver vs _).andThen fun u => .moved (finishValues_later vs u)
  | echo addr count => exact .moved (finishEcho_later count _)
  | err e => exact .moved (raise_later _ _ _)

/-! ## What takes an input -/

/-- The next beat is the same one, and the later ones stay behind it (30 R92). -/
theorem takePayload_carriesOver {i : Instr} {n : Nat} {f : Bool → State → Progress}
    (hf : ∀ good u, Progress.CarriesOver x (f good u) (f good (State.later u x))) :
    Progress.CarriesOver x (takePayload i n f s) (takePayload i n f (s.later x)) := by
  refine ite_rel Iff.rfl (fun hn => ?_) fun _ => hf _ _
  cases hp : s.payload with
  | nil => exact .blocked _
  | cons beat rest =>
    have hp' : (s.later x).payload = beat :: (rest ++ x.beats) := congrArg (· ++ x.beats) hp
    rw [hp']
    exact .moved rfl

theorem forwardStep_carriesOver (n : Nat) (s : State) :
    Progress.CarriesOver x (forwardStep n s) (forwardStep n (s.later x)) := by
  unfold forwardStep
  cases hp : s.payload with
  | nil => exact .blocked _
  | cons beat rest =>
    have hp' : (s.later x).payload = beat :: (rest ++ x.beats) := congrArg (· ++ x.beats) hp
    rw [hp']
    exact ite_rel Iff.rfl (fun _ => .moved rfl) fun _ => .blocked _

theorem payloadStep_carriesOver (s : State) :
    Progress.CarriesOver x (payloadStep s) (payloadStep (s.later x)) := by
  have hcmd : (s.later x).cmd = s.cmd := rfl
  unfold payloadStep
  rw [hcmd]
  split
  case h_1 => exact takePayload_carriesOver (writeRequest_carriesOver _ _ _)
  case h_2 => exact forwardStep_carriesOver _ _
  case h_3 => exact takePayload_carriesOver fun _ _ => .moved rfl
  case h_4 => exact takePayload_carriesOver (crcCheckAnswer_carriesOver _)
  all_goals exact .blocked _

/-- The answer to a call is the same one, and the later ones stay behind it (30 R99). -/
theorem takeAnswer_carriesOver {f : Answer → State → Progress}
    (hf : ∀ a u, Progress.CarriesOver x (f a u) (f a (State.later u x))) :
    Progress.CarriesOver x (takeAnswer f s) (takeAnswer f (s.later x)) := by
  cases ha : s.answers with
  | nil => rw [takeAnswer_nil ha]; exact .blocked _
  | cons a rest =>
    have ha' : (s.later x).answers = a :: (rest ++ x.answers) := congrArg (· ++ x.answers) ha
    rw [takeAnswer_cons ha, takeAnswer_cons ha']
    exact hf a { s with answers := rest }

theorem closeAnswer_carriesOver (a : Answer) (s : State) :
    Progress.CarriesOver x (closeAnswer a s) (closeAnswer a (s.later x)) :=
  ite_rel Iff.rfl (fun _ => .moved rfl) fun _ => .moved rfl

theorem openAnswer_carriesOver (a : Answer) (s : State) :
    Progress.CarriesOver x (openAnswer a s) (openAnswer a (s.later x)) :=
  ite_rel Iff.rfl (fun _ => .moved (congrArg offerCall (latchAttributes_later s.cmd
      (log (.reply (openReply a)) { s with handle := a.handle, connOpen := true, slave := 0, st := .sDrain }))))
    fun _ => .moved (raise_later _ _ (log (.reply (openReply a)) { s with st := .sDisc }))

theorem drainAnswer_carriesOver (a : Answer) (s : State) :
    Progress.CarriesOver x (drainAnswer a s) (drainAnswer a (s.later x)) :=
  Progress.CarriesOver.checkedRead (ite_rel Iff.rfl (fun _ => .moved rfl) fun _ => .moved rfl) _ a

theorem writeAnswer_carriesOver (a : Answer) (s : State) :
    Progress.CarriesOver x (writeAnswer a s) (writeAnswer a (s.later x)) :=
  ite_rel Iff.rfl (fun _ => .moved rfl) fun _ => .moved (raise_later _ _ (log (.reply (writeReply a)) s))

theorem readAnswer_carriesOver (a : Answer) (s : State) :
    Progress.CarriesOver x (readAnswer a s) (readAnswer a (s.later x)) := by
  refine ite_rel Iff.rfl (fun _ => .fault _ _) fun _ => Progress.CarriesOver.checkedRead ?_ _ a
  refine ite_rel Iff.rfl (fun _ => .moved (raise_later _ _ (log (.reply (.data a.bytes a.dt)) s))) fun _ => ?_
  exact (appendRx_carriesOver a.bytes (log (.reply (.data a.bytes a.dt)) s)).andThen fun u =>
    .moved (afterBytes_later { u with rem := ticksLeft u.rem a.dt })

/-- A tick is counted off what is there; the later ones stay (42 R188). -/
theorem settleStep_carriesOver (s : State) :
    Progress.CarriesOver x (settleStep s) (settleStep (s.later x)) := by
  refine ite_rel Iff.rfl (fun _ => .moved rfl) fun _ => ?_
  split
  · exact .blocked _
  · rename_i ht
    have hleft : s.ticks + x.ticks - 1 = s.ticks - 1 + x.ticks := by omega
    have ht' : (s.later x).ticks ≠ 0 := fun h => ht (Nat.eq_zero_of_add_eq_zero_right h)
    rw [if_neg ht']
    exact .moved (congrArg (fun n => { s.later x with rem := ticksLeft s.rem 1, ticks := n }) hleft)

/-! ## A transition and a step -/

theorem sessionStep_carriesOver (s : State) :
    Progress.CarriesOver x (sessionStep s) (sessionStep (s.later x)) := by
  have hst : (s.later x).st = s.st := rfl
  unfold sessionStep
  rw [hst]
  cases s.st with
  | sDisc => exact .blocked _
  | sIdle => exact .blocked _
  | sClosing => exact takeAnswer_carriesOver closeAnswer_carriesOver
  | sOpen => exact takeAnswer_carriesOver openAnswer_carriesOver
  | sDrain => exact takeAnswer_carriesOver drainAnswer_carriesOver
  | sSettle => exact settleStep_carriesOver s
  | sSyncFlush => exact takeAnswer_carriesOver fun _ _ => .moved rfl
  | sTx => exact takeAnswer_carriesOver writeAnswer_carriesOver
  | sRx => exact takeAnswer_carriesOver readAnswer_carriesOver
  | sCheck => exact checkStep_carriesOver s
  | sErrFlush => exact takeAnswer_carriesOver fun _ _ => .moved rfl

theorem workStep_carriesOver (s : State) : Progress.CarriesOver x (workStep s) (workStep (s.later x)) :=
  ite_rel Iff.rfl (fun _ => payloadStep_carriesOver s) fun _ =>
    ite_rel Iff.rfl (fun _ => callStep_carriesOver s) fun _ => sessionStep_carriesOver s

theorem transition_carriesOver (s : State) :
    Progress.CarriesOver x (transition s) (transition (s.later x)) := by
  have ho : (s.later x).rspOut = s.rspOut := rfl
  have hv : (s.later x).rvOut = s.rvOut := rfl
  refine ite_rel Iff.rfl (fun _ => .blocked _) fun _ => ?_
  rw [ho, hv]
  split
  · exact ite_rel Iff.rfl (fun _ => .moved rfl) fun _ => .blocked _
  · exact ite_rel Iff.rfl (fun _ => .moved rfl) fun _ => .blocked _
  · exact workStep_carriesOver s

/-- The record accepted is the same one, and the later ones stay behind it (30 R90). -/
theorem consumeRecord_later {r : CmdRecord} {rest : List CmdRecord} (hc : s.cmdIn = r :: rest) :
    consumeRecord (s.later x) = (consumeRecord s).later x := by
  simp [consumeRecord, State.later, State.withMore, hc]

theorem presented_later {r : CmdRecord} {rest : List CmdRecord} (hc : s.cmdIn = r :: rest) :
    presented (s.later x) = some r := by
  simp [presented, State.later, State.withMore, hc]

/-- A step that moves makes the same move with later inputs behind those there. -/
theorem step_later (hr : s.rst = false) (h : step s = .next t) (hne : t ≠ s) :
    step (s.later x) = .next (t.later x) := by
  have hrst : (s.later x).rst = false := hr
  rcases step_next h with ⟨hrst, -⟩ | ⟨-, -, -, rfl⟩ | ⟨-, hready, r, rest, i, hc, hd, hf⟩ |
    ⟨-, hready, r, rest, e, hc, hd, rfl⟩ | ⟨-, -, -, rfl⟩ | ⟨-, hready, ht⟩
  · rw [hr] at hrst; cases hrst
  · exact absurd rfl hne
  · have hready' : (s.later x).cmdReady = true := hready
    have hf' := (first_carriesOver (x := x) i (accept i (consumeRecord s))).eq_moved hf
    rw [step, if_neg (by simp [hrst]), if_pos hready', presented_later hc]
    simp only [hd, consumeRecord_later hc]
    rw [exec_ready (s := (consumeRecord s).later x) hready]
    exact congrArg (Progress.outcome _) hf'
  · have hready' : (s.later x).cmdReady = true := hready
    rw [step, if_neg (by simp [hrst]), if_pos hready', presented_later hc]
    simp only [hd, consumeRecord_later hc, illegalCommand]
    exact congrArg _ (raise_later _ _ (log (.reserved r.op) (consumeRecord s)))
  · exact absurd rfl hne
  · rw [step_busy hrst hready, (transition_carriesOver s).eq_moved ht]
    rfl

/-! ## A run -/

/-- Only a reset touches the reset input. -/
theorem transition_rst_eq (h : transition s = .moved t) : t.rst = s.rst := by
  obtain ⟨-, ⟨r, -, -, rfl⟩ | ⟨v, rest, -, -, -, rfl⟩ | ⟨-, -, -, h⟩ | ⟨-, -, -, -, h⟩ | ⟨-, -, -, -, h⟩⟩ :=
    transition_moved h
  · rfl
  · rfl
  · exact (held_eq_iff.1 (payloadStep_held h)).2
  · obtain ⟨-, c, -, rfl⟩ := callStep_moved h
    rfl
  · exact (held_eq_iff.1 (sessionStep_held h)).2

theorem step_keeps_rst_low (hr : s.rst = false) (h : step s = .next t) : t.rst = false :=
  step_keeps (P := fun s => s.rst = false) (fun _ _ hr h => (transition_rst_eq h).trans hr) (fun _ _ => rfl)
    (fun _ _ _ _ _ hr _ _ _ h => (held_eq_iff.1 (first_held h)).2.trans hr)
    (fun _ _ _ hr _ _ => (held_eq_iff.1 (ignoresEnd_held.raise _ _ _)).2.trans hr) hr h

/-- A run that never waited makes the same moves with later inputs behind those there. -/
theorem run_later {n : Nat} (hr : s.rst = false) (h : Host.Core.run Sys2Proof.core n s = .next t)
    (hmoves : ∀ k v, k < n → Host.Core.run Sys2Proof.core k s = .next v → step v ≠ .next v) (m : Nat) :
    Host.Core.run Sys2Proof.core (n + m) (s.later x) = Host.Core.run Sys2Proof.core m (t.later x) := by
  induction n generalizing s with
  | zero => cases h; rw [Nat.zero_add]
  | succ n ih =>
    obtain ⟨u, hu, h⟩ := run_succ_next h
    have hne : u ≠ s := fun e => hmoves 0 s n.succ_pos (run_zero s) (e ▸ hu)
    rw [Nat.succ_add, run_step (step_later hr hu hne)]
    exact ih (step_keeps_rst_low hr hu) h fun k v hk hv => hmoves (k + 1) v (by omega) ((run_step hu).trans hv)

end

/-- Settles O60: a step by its transition, a run by induction on its steps. -/
theorem laterInputsContinueTheCommand : Obligations.LaterInputsContinueTheCommand := by
  refine ⟨fun s t records beats answers ticks hr h hne => ?_,
    fun n m s u t records beats answers ticks hr h hmoves ht => ?_⟩
  · exact step_later (x := ⟨records, beats, answers, ticks⟩) hr h hne
  · exact (run_later (x := ⟨records, beats, answers, ticks⟩) hr h hmoves m).trans ht

end Sys2Proof.Machine
end

section
/-! PROOFS. The opcode map case by case (30_encoding.md R93, R94): what each value of `cmd_op` decodes to. -/

namespace Sys2Proof

variable {r : CmdRecord}

theorem decodeRecord_readHolding (h : r.op = 0x03#8) :
    decodeRecord r = .ok (.readHolding r.slave r.start r.count.toNat) := by simp [decodeRecord, h]

theorem decodeRecord_readInput (h : r.op = 0x04#8) :
    decodeRecord r = .ok (.readInput r.slave r.start r.count.toNat) := by simp [decodeRecord, h]

theorem decodeRecord_writeHolding (h : r.op = 0x10#8) :
    decodeRecord r = .ok (.writeHolding r.slave r.start r.count.toNat) := by simp [decodeRecord, h]

theorem decodeRecord_connect (h : r.op = 0x80#8) :
    decodeRecord r = .ok (.connect r.count.toNat r.baud r.databits r.parity r.stopbits) := by
  simp [decodeRecord, h]

theorem decodeRecord_disconnect (h : r.op = 0x81#8) : decodeRecord r = .ok .disconnect := by
  simp [decodeRecord, h]

theorem decodeRecord_setTiming (h : r.op = 0x82#8) :
    decodeRecord r = .ok (.setTiming r.tSettle r.tResp r.tDrain) := by simp [decodeRecord, h]

theorem decodeRecord_crc16 (h : r.op = 0x90#8) : decodeRecord r = .ok (.crc16 r.count.toNat) := by
  simp [decodeRecord, h]

theorem decodeRecord_crcCheck (h : r.op = 0x91#8) : decodeRecord r = .ok (.crcCheck r.count.toNat) := by
  simp [decodeRecord, h]

theorem decodeRecord_reserved
    (h : r.op ∉ [0x03#8, 0x04#8, 0x10#8, 0x80#8, 0x81#8, 0x82#8, 0x90#8, 0x91#8]) :
    decodeRecord r = .error (.reservedOpcode r.op) := by
  simp_all [decodeRecord]

/-- Settles O3: the map at each of its eight rows. -/
theorem opcodeSelectsTheCommand : Obligations.OpcodeSelectsTheCommand := fun _ =>
  ⟨decodeRecord_readHolding, decodeRecord_readInput, decodeRecord_writeHolding, decodeRecord_connect,
    decodeRecord_disconnect, decodeRecord_setTiming, decodeRecord_crc16, decodeRecord_crcCheck⟩

/-- Settles O5: the two records select the same row of the map, which reads only what they agree on. -/
theorem unusedFieldsAreIgnored : Obligations.UnusedFieldsAreIgnored := by
  intro r slave databits parity stopbits start count baud settle resp drain
  refine ⟨fun h => ?_, fun h => ?_, fun h => ?_, fun h => ?_, fun h q hq => ?_⟩
  · simp only [List.mem_cons, List.not_mem_nil, or_false] at h
    obtain h | h | h := h
    · rw [decodeRecord_readHolding h]; exact decodeRecord_readHolding h
    · rw [decodeRecord_readInput h]; exact decodeRecord_readInput h
    · rw [decodeRecord_writeHolding h]; exact decodeRecord_writeHolding h
  · rw [decodeRecord_connect h]; exact decodeRecord_connect h
  · rw [decodeRecord_setTiming h]; exact decodeRecord_setTiming h
  · simp only [List.mem_cons, List.not_mem_nil, or_false] at h
    obtain h | h := h
    · rw [decodeRecord_crc16 h]; exact decodeRecord_crc16 h
    · rw [decodeRecord_crcCheck h]; exact decodeRecord_crcCheck h
  · rw [decodeRecord_disconnect h, decodeRecord_disconnect (hq.trans h)]

end Sys2Proof
end

section
/-! PROOFS. The layout of the request frames and of an exception response (30_encoding.md R101, R103, R105): where a
frame made by `crcAppend` has its trailer, and where the values stand. -/

namespace Sys2Proof.Machine

/-- Settles O16: the request is its six bytes and their trailer. -/
theorem readRequestLayout : Obligations.ReadRequestLayout := fun slave k start qty =>
  ⟨rfl, encodeRead_length slave k start qty⟩

/-- A frame's own bytes stand before its trailer. -/
theorem byteAt_crcAppend {b : List Byte} {i : Nat} (h : i < b.length) : byteAt (crcAppend b) i = byteAt b i :=
  byteAt_append_left h

@[simp] theorem byteAt_crcAppend_lo (b : List Byte) : byteAt (crcAppend b) b.length = lo8 (crc16 b) := by
  rw [crcAppend, byteAt_append_right le_rfl, Nat.sub_self]
  rfl

@[simp] theorem byteAt_crcAppend_hi (b : List Byte) : byteAt (crcAppend b) (b.length + 1) = hi8 (crc16 b) := by
  rw [crcAppend, byteAt_append_right (Nat.le_add_right _ 1), Nat.add_sub_cancel_left]
  rfl

@[simp] theorem take_crcAppend (b : List Byte) : (crcAppend b).take b.length = b :=
  List.take_left

/-- A frame with its own trailer passes the check (40 R132, R133). -/
@[simp] theorem crcCheck_crcAppend (b : List Byte) : crcCheck (crcAppend b) = some true := by
  simp [crcCheck]

/-- Value `i` of a sequence stands at bytes `2i` and `2i + 1`, high byte first (30 R106). -/
theorem byteAt_valueBytes {vs : List Half} {i : Nat} {v : Half} (h : vs[i]? = some v) :
    byteAt (valueBytes vs) (2 * i) = hi8 v ∧ byteAt (valueBytes vs) (2 * i + 1) = lo8 v := by
  induction vs generalizing i with
  | nil => cases h
  | cons w vs ih =>
    cases i with
    | zero => cases h; exact ⟨rfl, rfl⟩
    | succ i => exact ih h

@[simp] theorem writeBody_length (slave : Byte) (start : Half) (vals : List Half) :
    (writeBody slave start vals).length = 7 + 2 * vals.length := by
  simp [writeBody]; omega

/-- The values of a write request begin at byte 7 (30 R103). -/
theorem byteAt_writeBody_value {slave : Byte} {start : Half} {vals : List Half} (j : Nat) :
    byteAt (writeBody slave start vals) (7 + j) = byteAt (valueBytes vals) j := by
  rw [writeBody, byteAt_append_right (by simp)]
  congr 1
  simp

/-- Settles O17: the header byte by byte, the values from byte 7 on, and the trailer of both. -/
theorem writeRequestLayout : Obligations.WriteRequestLayout := by
  intro slave start vals hk f
  have hf : f.length = 9 + 2 * vals.length := encodeWrite_length slave start vals
  have hbody := writeBody_length slave start vals
  have hvalue : ∀ j, j < 2 * vals.length → byteAt f (7 + j) = byteAt (valueBytes vals) j := fun j hj =>
    (byteAt_crcAppend (by omega)).trans (byteAt_writeBody_value j)
  have hcount : be16 (byteAt f 4) (byteAt f 5) = BitVec.ofNat 16 vals.length := be16_hi8_lo8 _
  have hbytes : byteAt f 6 = lo8 (BitVec.ofNat 16 (2 * vals.length)) := rfl
  have htake : f.take (7 + 2 * vals.length) = writeBody slave start vals := hbody ▸ take_crcAppend _
  refine ⟨hf, by omega, rfl, rfl, be16_hi8_lo8 start, ?_, ?_, fun i v hv => ?_, ?_, ?_⟩
  · rw [hcount, BitVec.toNat_ofNat, Nat.mod_eq_of_lt (by omega)]
  · rw [hbytes, lo8, BitVec.toNat_setWidth, BitVec.toNat_ofNat]
    omega
  · obtain ⟨hi, -⟩ := List.getElem?_eq_some_iff.1 hv
    obtain ⟨hhi, hlo⟩ := byteAt_valueBytes hv
    refine ⟨(hvalue _ (by omega)).trans hhi, ?_⟩
    rw [show 8 + 2 * i = 7 + (2 * i + 1) by omega, hvalue _ (by omega), hlo]
  · rw [htake, ← hbody]
    exact byteAt_crcAppend_lo _
  · rw [htake, show 8 + 2 * vals.length = (writeBody slave start vals).length + 1 by omega]
    exact byteAt_crcAppend_hi _

/-- The three function codes are seven bits wide: with the exception bit set they are still told apart by the other
seven (30 R105, 41 R157). -/
theorem masked_exception {fc : Byte} (h : fc ∈ [0x03#8, 0x04#8, 0x10#8]) :
    (fc ||| 0x80#8) &&& 0x7F#8 = fc ∧ (fc ||| 0x80#8) &&& Config.excBit ≠ 0 := by
  revert fc
  decide

/-- The exception response of a function is long enough, is intact, and is the slave's (30 R105): what is left of the
decoder are its tests of the function and of the exception bit. -/
theorem decodeFrame_exception (slave fc code other : Byte) :
    decodeFrame (crcAppend [slave, fc ||| 0x80#8, code]) slave other =
      if (fc ||| 0x80#8) &&& 0x7F#8 ≠ other then .err .unexpectedResponse
      else if (fc ||| 0x80#8) &&& Config.excBit ≠ 0 then .err (.slaveException code)
      else if other = Config.fcWriteHolding then decodeEcho (crcAppend [slave, fc ||| 0x80#8, code])
      else decodeValues (crcAppend [slave, fc ||| 0x80#8, code]) := by
  have hlen : ¬ (crcAppend [slave, fc ||| 0x80#8, code]).length < Config.minFrameLen := by
    simp [Config.minFrameLen]
  have hslave : byteAt (crcAppend [slave, fc ||| 0x80#8, code]) 0 = slave := rfl
  rw [decodeFrame, if_neg hlen, if_neg (not_not.2 (crcCheck_crcAppend _)), if_neg (not_not.2 hslave)]
  rfl

/-- Settles O22: the function test passes for the function itself alone, and then the exception bit is seen. -/
theorem exceptionResponseDecodesToItsCode : Obligations.ExceptionResponseDecodesToItsCode := by
  intro slave fc code hfc
  obtain ⟨hmask, hbit⟩ := masked_exception hfc
  refine ⟨?_, fun other _ hne => ?_⟩
  · rw [decodeFrame_exception, if_neg (not_not.2 hmask), if_pos hbit]
  · rw [decodeFrame_exception, if_pos (hmask.trans_ne hne.symm)]

end Sys2Proof.Machine
end

section
/-! PROOFS. The length a response announces (30_encoding.md R107), row by row. -/

namespace Sys2Proof.Machine

variable {rx : List Byte}

theorem flen_short (h : rx.length < 2) : flen rx = none := by
  rw [flen, if_pos h]

theorem flen_exception (h : 2 ≤ rx.length) (hx : byteAt rx 1 &&& 0x80#8 ≠ 0) : flen rx = some 5 := by
  rw [flen, if_neg (by omega)]
  exact if_pos hx

theorem flen_read (h : 2 ≤ rx.length) (hf : byteAt rx 1 = 0x03#8 ∨ byteAt rx 1 = 0x04#8) :
    flen rx = if rx.length < 3 then none else some (5 + (byteAt rx 2).toNat) := by
  have hx : ¬ byteAt rx 1 &&& Config.excBit ≠ 0 := by rcases hf with hf | hf <;> rw [hf] <;> decide
  rw [flen, if_neg (by omega), if_neg hx]
  exact if_pos hf

theorem flen_write (h : 2 ≤ rx.length) (hf : byteAt rx 1 = 0x10#8) : flen rx = some 8 := by
  have hlen : ¬ rx.length < 2 := by omega
  simp [flen, hlen, hf, Config.excBit, Config.fcReadHolding, Config.fcReadInput, Config.fcWriteHolding]

theorem flen_other (h : 2 ≤ rx.length) (hf : byteAt rx 1 ∉ [0x03#8, 0x04#8, 0x10#8]) : flen rx = some 5 := by
  simp only [List.mem_cons, List.not_mem_nil, or_false, not_or] at hf
  obtain ⟨h3, h4, h16⟩ := hf
  have hlen : ¬ rx.length < 2 := by omega
  simp [flen, hlen, h3, h4, h16, Config.fcReadHolding, Config.fcReadInput, Config.fcWriteHolding]

/-- A known length is announced by bytes 1 and 2, which are there: the byte count of a read, 8 of a write, else 5. -/
theorem flen_eq_some {n : Nat} (h : flen rx = some n) :
    2 ≤ rx.length ∧
    ((3 ≤ rx.length ∧ (byteAt rx 1 = 0x03#8 ∨ byteAt rx 1 = 0x04#8) ∧ n = 5 + (byteAt rx 2).toNat) ∨
      (byteAt rx 1 = 0x10#8 ∧ n = 8) ∨ (byteAt rx 1 ∉ [0x03#8, 0x04#8, 0x10#8] ∧ n = 5)) := by
  have hlen : 2 ≤ rx.length := by
    by_contra hl
    rw [flen_short (by omega)] at h
    cases h
  refine ⟨hlen, ?_⟩
  by_cases hread : byteAt rx 1 = 0x03#8 ∨ byteAt rx 1 = 0x04#8
  · rw [flen_read hlen hread] at h
    split at h
    · cases h
    · cases h
      exact .inl ⟨by omega, hread, rfl⟩
  · by_cases hwrite : byteAt rx 1 = 0x10#8
    · rw [flen_write hlen hwrite] at h
      cases h
      exact .inr (.inl ⟨hwrite, rfl⟩)
    · have hother : byteAt rx 1 ∉ [0x03#8, 0x04#8, 0x10#8] := by
        simpa using ⟨fun e => hread (.inl e), fun e => hread (.inr e), hwrite⟩
      rw [flen_other hlen hother] at h
      cases h
      exact .inr (.inr ⟨hother, rfl⟩)

theorem flen_bounds {n : Nat} (h : flen rx = some n) : 5 ≤ n ∧ n ≤ 260 := by
  obtain ⟨-, ⟨-, -, rfl⟩ | ⟨-, rfl⟩ | ⟨-, rfl⟩⟩ := flen_eq_some h
  · have := (byteAt rx 2).isLt
    omega
  · decide
  · decide

/-- The bytes that announce a length stay where they are when more arrive behind them. -/
theorem flen_append {n : Nat} (h : flen rx = some n) (more : List Byte) : flen (rx ++ more) = some n := by
  obtain ⟨hlen, hrow⟩ := flen_eq_some h
  have hlen' : 2 ≤ (rx ++ more).length := by simp; omega
  have h1 : byteAt (rx ++ more) 1 = byteAt rx 1 := byteAt_append_left (by omega)
  obtain ⟨hthree, hf, rfl⟩ | ⟨hf, rfl⟩ | ⟨hf, rfl⟩ := hrow
  · rw [flen_read hlen' (h1 ▸ hf), if_neg (by simp; omega), byteAt_append_left (by omega)]
  · exact flen_write hlen' (h1.trans hf)
  · exact flen_other hlen' (h1 ▸ hf)

/-- Settles O23: the rows of the table, and of a known length its range and that it stays. -/
theorem announcedLengthIsBoundedAndStable : Obligations.AnnouncedLengthIsBoundedAndStable := by
  intro rx
  refine ⟨flen_short, fun h => ⟨flen_exception h, flen_read h, flen_write h, flen_other h⟩, fun h => ?_,
    fun n h => ?_⟩
  · rw [target, h]
    rfl
  · obtain ⟨hlo, hhi⟩ := flen_bounds h
    exact ⟨by rw [target, h]; rfl, hlo, hhi, flen_append h⟩

end Sys2Proof.Machine
end

section
/-! PROOFS. The response port (30_encoding.md R95, R96) and the answer to a reserved opcode (R94): a step with
something to deliver delivers it or waits for the host. -/

namespace Sys2Proof.Machine

variable {s : State}

/-- A ready engine takes the record of a reserved opcode and offers the answer (30 R94, 60 R274). -/
theorem step_ready_reserved (h : s.cmdReady = true) {r : CmdRecord} {rest : List CmdRecord} {e : DecodeError}
    (hc : s.cmdIn = r :: rest) (hd : decodeRecord r = .error e) :
    step s = .next (respond Status.illegalCommand.code 0 0 [] (log (.reserved r.op) (consumeRecord s))) := by
  simp [step, presented, illegalCommand, rst_of_cmdReady h, h, hc, hd, raise_of_cmdReady h]

/-- An engine with something to deliver is not ready (30 R90). -/
theorem cmdReady_of_not_quiet (h : s.quiet = false) : s.cmdReady = false := by
  simp [State.cmdReady, State.busy, h]

/-- A record offered is delivered when the host takes it, and waits until then (30 R95). -/
theorem step_rsp (hr : s.rst = false) {r : Response} (ho : s.rspOut = some r) :
    step s = if s.rspReady then .next (deliver r s) else .next s := by
  rw [step_busy hr (cmdReady_of_not_quiet (by simp [State.quiet, ho]))]
  cases hh : s.rspReady <;> simp [transition, hr, ho, hh, Progress.outcome]

/-- A value beat offered is delivered when the host takes it, and waits until then (30 R96). -/
theorem step_value (hr : s.rst = false) (ho : s.rspOut = none) {v : Half} {rest : List Half}
    (hv : s.rvOut = v :: rest) : step s = if s.rvReady then .next (deliverValue v rest s) else .next s := by
  rw [step_busy hr (cmdReady_of_not_quiet (by simp [State.quiet, hv]))]
  cases hh : s.rvReady <;> simp [transition, hr, ho, hv, hh, Progress.outcome]

/-- With a host that takes them the value beats go out in order, and the last ends the command (30 R96). -/
theorem stepsTo_deliverValues (hr : s.rst = false) (ho : s.rspOut = none) (hready : s.rvReady = true) {v : Half}
    {rest : List Half} (hv : s.rvOut = v :: rest) :
    StepsTo s { s with rvOut := [], cmd := none, vLen := 0, trace := s.trace ++ (v :: rest).map .value } := by
  have hstep : step s = .next (deliverValue v rest s) := (step_value hr ho hv).trans (if_pos hready)
  induction rest generalizing s v with
  | nil => exact .head hstep (.refl _)
  | cons w rest ih =>
    have hnext := ih (s := deliverValue v (w :: rest) s) hr ho hready rfl
      ((step_value (s := deliverValue v (w :: rest) s) hr ho rfl).trans (if_pos hready))
    have htrace : s.trace ++ (v :: w :: rest).map Event.value =
        (s.trace ++ [.value v]) ++ (w :: rest).map .value := by simp
    rw [htrace]
    exact .head hstep hnext

/-- Settles O43: the record and each beat by their step, all the beats by induction over them. -/
theorem responseWaitsForTheHost : Obligations.ResponseWaitsForTheHost := by
  intro s hr
  refine ⟨fun r ho => ⟨fun hh => ?_, fun hh => ?_⟩, fun v rest ho hv => ⟨fun hh => ?_, fun hh => ?_⟩,
    fun ho hv hh => ?_⟩
  · rw [step_rsp hr ho, if_neg (by simp [hh])]
  · rw [step_rsp hr ho, if_pos hh]
    rfl
  · rw [step_value hr ho hv, if_neg (by simp [hh])]
  · rw [step_value hr ho hv, if_pos hh]
    rfl
  · obtain ⟨v, rest, hv⟩ := List.exists_cons_of_ne_nil hv
    rw [hv]
    exact stepsTo_deliverValues hr ho hh hv

/-- Settles O6: the acceptance offers the answer, the next step delivers it, and neither touches more. -/
theorem reservedOpcodeAnswersIllegalCommand : Obligations.ReservedOpcodeAnswersIllegalCommand := by
  rintro s r rest ⟨⟨hready, -⟩, hh⟩ hc hop u
  obtain ⟨hcmd, ho, hv⟩ := quiet_of_cmdReady hready
  have hrst : s.rst = false := rst_of_cmdReady hready
  constructor
  · rw [step_ready_reserved hready hc (decodeRecord_reserved hop)]
    simp [u, respond, log, consumeRecord, hc, hv, Response.failure]
  · rw [step_rsp (s := u) hrst rfl, if_pos hh]
    simp [u, deliver, log, hcmd, hv, ho]

end Sys2Proof.Machine
end

section
/-! PROOFS. The payload of a command that takes it at rest (30_encoding.md R92; 40_crc16.md R134, R135;
43_function_dispatcher.md R233): one beat by a step, then any number of them by induction, with what the command makes
of them kept apart from the state. -/

namespace Sys2Proof.Machine

variable {s : State} {i : Instr} {n : Nat}

/-! ## One beat -/

/-- A step of a command that waits for payload, with nothing to deliver, is its payload transfer. -/
theorem step_payload (hr : s.rst = false) (hq : s.quiet = true) (hp : s.plWait = true) (hc : s.cmd = some i) :
    step s = (payloadStep s).outcome s := by
  obtain ⟨ho, hv⟩ : s.rspOut = none ∧ s.rvOut = [] := by simpa [State.quiet] using hq
  rw [step_busy hr (cmdReady_of_cmd hc), transition_quiet hr ho hv, workStep, if_pos hp]

/-- The transfer of a command that takes its payload at rest (30 R92). -/
theorem payloadStep_atRest (hc : s.cmd = some i) (hn : i.count? = some n) (hi : Instr.payloadAtRest i = true) :
    ∃ f, payloadStep s = takePayload i n f s := by
  cases i <;> cases hi <;> cases hn <;> exact ⟨_, by rw [payloadStep, hc]⟩

/-- The transfer of a `CONNECT` (42 R182). -/
theorem payloadStep_connect (hc : s.cmd = some i) (hn : i.count? = some n) (hi : Instr.isConnect i = true) :
    payloadStep s = forwardStep n s := by
  cases i <;> cases hi
  cases hn
  rw [payloadStep, hc]

/-- A beat offered is taken. -/
theorem step_takeBeat (hr : s.rst = false) (hq : s.quiet = true) (hp : s.plWait = true) (hc : s.cmd = some i)
    (hn : i.count? = some n) (hi : Instr.payloadAtRest i = true) (hlt : s.plTaken < n) {beat : Word}
    {rest : List Word} (hb : s.payload = beat :: rest) : step s = .next (takeBeat i beat rest s) := by
  obtain ⟨f, hf⟩ := payloadStep_atRest hc hn hi
  rw [step_payload hr hq hp hc, hf, takePayload_beat hlt hb]
  rfl

/-- With no beat offered and one still to take the engine waits, whichever command it is. -/
theorem step_no_beat (hr : s.rst = false) (hq : s.quiet = true) (hp : s.plWait = true) (hc : s.cmd = some i)
    (hn : i.count? = some n) (hi : Instr.payloadAtRest i = true ∨ Instr.isConnect i = true) (hlt : s.plTaken < n)
    (hb : s.payload = []) : step s = .next s := by
  rw [step_payload hr hq hp hc]
  rcases hi with hi | hi
  · obtain ⟨f, hf⟩ := payloadStep_atRest hc hn hi
    rw [hf, takePayload_waits hlt hb]
    rfl
  · rw [payloadStep_connect hc hn hi, forwardStep_waits (.inl hb)]
    rfl

/-- A byte of a name is forwarded when the transport takes it, and waits until then (42 R182). -/
theorem step_forward (hr : s.rst = false) (hq : s.quiet = true) (hp : s.plWait = true) (hc : s.cmd = some i)
    (hn : i.count? = some n) (hi : Instr.isConnect i = true) {beat : Word} {rest : List Word}
    (hb : s.payload = beat :: rest) :
    step s = if s.twReady then .next (forwardByte n beat rest s) else .next s := by
  rw [step_payload hr hq hp hc, payloadStep_connect hc hn hi]
  cases ht : s.twReady with
  | false => rw [forwardStep_waits (.inr ht)]; rfl
  | true => rw [forwardStep_beat ht hb]; rfl

/-! ## What a command makes of its beats -/

/-- What a command keeps of the beats it has taken: `CRC`, whether all passed their tests, and `VBUF`. -/
structure BeatsKept where
  crc : Half
  good : Bool
  vbuf : Memory 16

/-- What command `i` keeps of more beats, the first of them beat `k` of its payload. -/
def keepBeats (i : Instr) (k : Nat) : List Word → BeatsKept → BeatsKept
  | [], x => x
  | beat :: rest, x => keepBeats i (k + 1) rest
      ⟨beatCrc i k beat x.crc, beatGood i k beat x.crc x.good, beatStore i k beat x.good x.vbuf⟩

/-- The state after `beats` more are taken, with `rest` still offered. -/
def takeBeats (i : Instr) (beats rest : List Word) (s : State) : State :=
  let x := keepBeats i s.plTaken beats ⟨s.crc, s.plGood, s.vbuf⟩
  { s with payload := rest, plTaken := s.plTaken + beats.length, crc := x.crc, plGood := x.good, vbuf := x.vbuf
           trace := s.trace ++ beats.map .payload }

theorem takeBeats_nil {rest : List Word} (hb : s.payload = rest) : takeBeats i [] rest s = s := by
  subst hb
  simp [takeBeats, keepBeats]

/-- The first of several beats is taken, and then the others. -/
theorem takeBeats_cons (beat : Word) (beats rest : List Word) :
    takeBeats i (beat :: beats) rest s = takeBeats i beats rest (takeBeat i beat (beats ++ rest) s) := by
  simp [takeBeats, takeBeat, keepBeats, log, Nat.add_assoc, Nat.add_comm 1]

/-- As many beats as are still to take are taken one by one (20 R63). -/
theorem stepsTo_takeBeats {beats rest : List Word} (hr : s.rst = false) (hq : s.quiet = true)
    (hp : s.plWait = true) (hc : s.cmd = some i) (hn : i.count? = some n) (hi : Instr.payloadAtRest i = true)
    (hle : s.plTaken + beats.length ≤ n) (hb : s.payload = beats ++ rest) :
    StepsTo s (takeBeats i beats rest s) := by
  induction beats generalizing s with
  | nil =>
    rw [takeBeats_nil (by simpa using hb)]
    exact .refl s
  | cons beat beats ih =>
    rw [List.length_cons] at hle
    rw [takeBeats_cons]
    refine .head (step_takeBeat hr hq hp hc hn hi (by omega) hb) ?_
    exact ih (s := takeBeat i beat (beats ++ rest) s) hr hq hp hc
      (show s.plTaken + 1 + beats.length ≤ n by omega) rfl

/-- `CRC16` folds every byte into `CRC` (40 R134). -/
theorem keepBeats_crc16 (k : Nat) (beats : List Word) (x : BeatsKept) :
    keepBeats (.crc16 n) k beats x = { x with crc := crcFold x.crc (beats.map beatByte) } := by
  induction beats generalizing k x with
  | nil => rfl
  | cons beat beats ih => exact ih _ _

/-- A `CRC_CHECK` short of bytes has folded into `CRC` those before the trailer, and has compared with its low byte the
first byte of the trailer, if that one is there (40 R135). -/
theorem keepBeats_crcCheck {k : Nat} {beats : List Word} (hn : 2 ≤ n) (h : k + beats.length < n) (x : BeatsKept) :
    keepBeats (.crcCheck n) k beats x =
      let c := crcFold x.crc ((beats.take (n - 2 - k)).map beatByte)
      { x with
        crc := c
        good := x.good && (beats.drop (n - 2 - k)).all fun beat => decide (beatByte beat = lo8 c) } := by
  induction beats generalizing k x with
  | nil => simp [keepBeats, crcFold]
  | cons beat beats ih =>
    rw [List.length_cons] at h
    rw [keepBeats]
    by_cases hbody : k + 2 < n
    · rw [ih (by omega), show n - 2 - k = n - 2 - (k + 1) + 1 by omega]
      simp [beatCrc, beatGood, beatStore, crcFold, hbody]
    · obtain rfl : beats = [] := List.length_eq_zero_iff.1 (by omega)
      obtain rfl : n = k + 2 := by omega
      simp [keepBeats, beatCrc, beatGood, beatStore, crcFold]

/-- `WRITE_HOLDING` with a count above 123 tests no value and stores none (60 R269). -/
theorem keepBeats_writeHolding_tooMany {slave : Byte} {start : Half} (h : Config.maxWriteCount < n) (k : Nat)
    (beats : List Word) (x : BeatsKept) : keepBeats (.writeHolding slave start n) k beats x = x := by
  induction beats generalizing k with
  | nil => rfl
  | cons beat beats ih =>
    rw [keepBeats]
    simpa [beatCrc, beatGood, beatStore, h, Nat.not_le.2 h] using ih (k + 1)

/-- `WRITE_HOLDING` tests every value and stores those before the first out of range (43 R233, 10 R38). -/
theorem keepBeats_writeHolding {slave : Byte} {start : Half} (h : n ≤ Config.maxWriteCount) (k : Nat)
    (beats : List Word) (x : BeatsKept) :
    keepBeats (.writeHolding slave start n) k beats x =
      { x with
        good := x.good && beats.all beatInRange
        vbuf := if x.good then x.vbuf.writeFrom k ((beats.takeWhile beatInRange).map beatValue) else x.vbuf } := by
  induction beats generalizing k x with
  | nil => simp [keepBeats]
  | cons beat beats ih =>
    rw [keepBeats, ih]
    cases hg : x.good <;> cases hb : beatInRange beat <;>
      simp [beatCrc, beatGood, beatStore, h, Nat.not_lt.2 h, hb, Memory.writeFrom_cons]

/-! ## A payload that is not all there -/

theorem quiet_of_atRest (h : s.atRest) : s.quiet = true := by
  obtain ⟨-, ho, hv⟩ := quiet_of_cmdReady h.1
  simp [State.quiet, ho, hv]

/-- What the acceptance of a command at rest changes (30 R90, 10 R39). -/
theorem accept_atRest (h : s.atRest) (i : Instr) :
    accept i s = { s with cmd := some i, op := i.opcode, trace := s.trace ++ [.cmd i] } := by
  obtain ⟨-, hp, ht, hg, hc⟩ := h
  simp [accept, log, hp, ht, hg, hc]

/-- Command `i` accepted, with its payload still to take (30 R92; 40 R134, R135). -/
def awaiting (i : Instr) (s : State) : State :=
  { s with
    cmd := some i, op := i.opcode, plWait := true, plTaken := 0, plGood := true, crc := initialCrc i s.crc
    trace := s.trace ++ [.cmd i] }

/-- A command that takes its payload at rest begins with that. -/
theorem exec_payloadAtRest (h : s.atRest) (hi : Instr.payloadAtRest i = true) :
    exec i s = .next (awaiting i s) := by
  rw [exec_ready h.1, accept_atRest h]
  cases i <;> cases hi <;> rfl

/-- Given fewer beats than its count it takes them all and waits (30 R92). -/
theorem waitsAt_takeBeats (h : s.atRest) (hi : Instr.payloadAtRest i = true) (hn : i.count? = some n)
    (hlt : s.payload.length < n) : WaitsAt i s (takeBeats i s.payload [] (awaiting i s)) := by
  have hr : s.rst = false := rst_of_cmdReady h.1
  have hq : s.quiet = true := quiet_of_atRest h
  have hle : (awaiting i s).plTaken + s.payload.length < n := by simpa [awaiting] using hlt
  exact ⟨⟨_, exec_payloadAtRest h hi, stepsTo_takeBeats hr hq rfl rfl hn hi hle.le (List.append_nil _).symm⟩,
    step_no_beat (s := takeBeats i s.payload [] (awaiting i s)) hr hq rfl rfl hn (.inl hi) hle rfl⟩

/-- What the shortage of a command that takes its payload at rest leaves. -/
theorem takeBeats_awaiting (i : Instr) (s : State) :
    takeBeats i s.payload [] (awaiting i s) =
      let x := keepBeats i 0 s.payload ⟨initialCrc i s.crc, true, s.vbuf⟩
      { s with
        op := i.opcode, cmd := some i, plWait := true, plTaken := s.payload.length, payload := []
        crc := x.crc, plGood := x.good, vbuf := x.vbuf
        trace := s.trace ++ [.cmd i] ++ s.payload.map .payload } := by
  simp [takeBeats, awaiting]

/-- A `WRITE_HOLDING` short of values has stored those before the first out of range (43 R233). -/
theorem waitsAt_writeHolding {slave : Byte} {start : Half} (h : s.atRest) (hlt : s.payload.length < n) :
    WaitsAt (.writeHolding slave start n) s { s with
      op := 0x10#8, cmd := some (.writeHolding slave start n), plWait := true, plTaken := s.payload.length
      payload := [], plGood := decide (123 < n) || s.payload.all beatInRange
      vbuf := if 123 < n then s.vbuf
        else s.vbuf.writeFrom 0 ((s.payload.takeWhile beatInRange).map beatValue)
      trace := s.trace ++ [.cmd (.writeHolding slave start n)] ++ s.payload.map .payload } := by
  have hwaits := waitsAt_takeBeats (i := .writeHolding slave start n) h rfl rfl hlt
  rw [takeBeats_awaiting] at hwaits
  by_cases hn : 123 < n
  · rw [keepBeats_writeHolding_tooMany hn] at hwaits
    simpa [hn, initialCrc, Instr.opcode] using hwaits
  · rw [keepBeats_writeHolding (Nat.not_lt.1 hn)] at hwaits
    simpa [hn, initialCrc, Instr.opcode] using hwaits

/-- A `CRC16` short of bytes has folded each of them (40 R134). -/
theorem waitsAt_crc16 (h : s.atRest) (hlt : s.payload.length < n) :
    WaitsAt (.crc16 n) s { s with
      op := 0x90#8, cmd := some (.crc16 n), plWait := true, plTaken := s.payload.length, payload := []
      crc := Machine.crc16 (s.payload.map beatByte)
      trace := s.trace ++ [.cmd (.crc16 n)] ++ s.payload.map .payload } := by
  have hwaits := waitsAt_takeBeats (i := .crc16 n) h rfl rfl hlt
  rw [takeBeats_awaiting, keepBeats_crc16] at hwaits
  obtain ⟨-, -, -, hg, -⟩ := h
  rw [hg]
  exact hwaits

/-- A `CRC_CHECK` short of bytes has folded those before the trailer (40 R135). -/
theorem waitsAt_crcCheck (h : s.atRest) (hlt : s.payload.length < n) :
    WaitsAt (.crcCheck n) s { s with
      op := 0x91#8, cmd := some (.crcCheck n), plWait := true, plTaken := s.payload.length, payload := []
      crc := if n < 2 then s.crc else Machine.crc16 ((s.payload.take (n - 2)).map beatByte)
      plGood := (s.payload.drop (n - 2)).all fun beat =>
        decide (beatByte beat = lo8 (Machine.crc16 ((s.payload.take (n - 2)).map beatByte)))
      trace := s.trace ++ [.cmd (.crcCheck n)] ++ s.payload.map .payload } := by
  have hwaits := waitsAt_takeBeats (i := .crcCheck n) h rfl rfl hlt
  rw [takeBeats_awaiting] at hwaits
  by_cases hn : n < 2
  · have hnil : s.payload = [] := List.length_eq_zero_iff.1 (by omega)
    simpa [hnil, hn, keepBeats, initialCrc, Instr.opcode] using hwaits
  · rw [keepBeats_crcCheck (by omega) (by omega)] at hwaits
    simpa [hn, initialCrc, Instr.opcode, Machine.crc16] using hwaits

end Sys2Proof.Machine
end

section
/-! PROOFS. A `CONNECT` up to the bytes of its name (42_bus_session.md R182, R183): an old Connection is closed,
`T.open` is issued, and the bytes that are there are forwarded. -/

namespace Sys2Proof.Machine

variable {s : State} {i : Instr} {n : Nat}

/-- A call offered is issued when the transport takes it (30 R98). -/
theorem step_issue (hr : s.rst = false) (hq : s.quiet = true) (hst : s.st.isRest = false) (hp : s.plWait = false)
    (hw : s.callWait = true) (ht : s.tReady = true) {c : Call} (hc : s.portCall = some c) :
    step s = .next (issue c s) := by
  rw [step_quiet hr hq hst hp, if_pos hw, callStep, if_pos ht, hc]
  rfl

/-- In a `CONNECT` the answer of the close leads to `T.open` (42 R180, R183). -/
theorem step_closeAnswer_connect (hr : s.rst = false) (hq : s.quiet = true) (hst : s.st = .sClosing)
    (hp : s.plWait = false) (hw : s.callWait = false) (hop : s.op = 0x80#8) {a : Answer} {rest : List Answer}
    (ha : s.answers = a :: rest) :
    step s = .next (enterOpen (log (.reply .closed) { s with answers := rest, connOpen := false })) := by
  have hsession : sessionStep s = takeAnswer closeAnswer s := by rw [sessionStep, hst]
  rw [step_quiet hr hq (by rw [hst]; rfl) hp, if_neg (by simp [hw]), hsession, takeAnswer_cons ha, closeAnswer,
    if_pos hop]
  rfl

/-- The state after `beats` more of a name are forwarded and not the last of it, with `rest` still offered. -/
def forwardBytes (beats rest : List Word) (s : State) : State :=
  { s with payload := rest, plTaken := s.plTaken + beats.length, trace := s.trace ++ nameEvents beats }

theorem forwardBytes_nil {rest : List Word} (hb : s.payload = rest) : forwardBytes [] rest s = s := by
  subst hb
  simp [forwardBytes, nameEvents]

/-- The first of several bytes is forwarded, and then the others. -/
theorem forwardBytes_cons (hp : s.plWait = true) (hlt : s.plTaken + 1 < n) (beat : Word) (beats rest : List Word) :
    forwardBytes (beat :: beats) rest s = forwardBytes beats rest (forwardByte n beat (beats ++ rest) s) := by
  simp [forwardBytes, forwardByte, nameEvents, log, hp, hlt, Nat.add_assoc, Nat.add_comm 1]

/-- With bytes of the name still to come, those that are there are forwarded one by one (42 R182). -/
theorem stepsTo_forwardBytes {beats rest : List Word} (hr : s.rst = false) (hq : s.quiet = true)
    (hp : s.plWait = true) (hc : s.cmd = some i) (hn : i.count? = some n) (hi : Instr.isConnect i = true)
    (ht : s.twReady = true) (hlt : s.plTaken + beats.length < n) (hb : s.payload = beats ++ rest) :
    StepsTo s (forwardBytes beats rest s) := by
  induction beats generalizing s with
  | nil =>
    rw [forwardBytes_nil (by simpa using hb)]
    exact .refl s
  | cons beat beats ih =>
    rw [List.length_cons] at hlt
    have hmore : s.plTaken + 1 < n := by omega
    rw [forwardBytes_cons hp hmore]
    refine .head ((step_forward hr hq hp hc hn hi hb).trans (if_pos ht)) ?_
    refine ih (s := forwardByte n beat (beats ++ rest) s) hr hq (decide_eq_true hmore) hc ht ?_ rfl
    simp [hmore]
    omega

/-- `CONNECT` with its `T.open` offered: an old Connection is closed, its answer taken (42 R182, R183). -/
def offersOpen (i : Instr) (rest : List Answer) (s : State) : State :=
  { s with
    cmd := some i, op := i.opcode, st := .sOpen, connOpen := false, callWait := true, answers := rest
    trace := s.trace ++ [.cmd i] ++ s.closeEvents }

/-- `CONNECT` accepted on a Connection: its `T.close` is offered (42 R183). -/
def offersClose (i : Instr) (s : State) : State :=
  { s with cmd := some i, op := i.opcode, st := .sClosing, callWait := true, trace := s.trace ++ [.cmd i] }

/-- The first act of a `CONNECT` (42 R182, R183). -/
theorem exec_connect (h : s.atRest) (hi : Instr.isConnect i = true) :
    exec i s = .next (if s.connOpen then offersClose i s else offersOpen i s.answers s) := by
  rw [exec_ready h.1, accept_atRest h]
  cases i <;> cases hi
  cases hconn : s.connOpen <;>
    simp [Instr.first, Progress.outcome, offersClose, offersOpen, closePort, enterOpen, offerCall, State.closeEvents,
      hconn]

/-- The close is issued and answered, and `T.open` is offered (42 R183). -/
theorem stepsTo_offersOpen (h : s.atRest) (hi : Instr.isConnect i = true) (ht : s.tReady = true)
    (hconn : s.connOpen = true) {a : Answer} {rest : List Answer} (ha : s.answers = a :: rest) :
    StepsTo (offersClose i s) (offersOpen i rest s) := by
  have hr : s.rst = false := rst_of_cmdReady h.1
  have hq : s.quiet = true := quiet_of_atRest h
  obtain ⟨-, hp, -⟩ := h
  have hissue := step_issue (s := offersClose i s) hr hq rfl hp rfl ht rfl
  have hop : i.opcode = 0x80#8 := by cases i <;> cases hi; rfl
  have hclosed := step_closeAnswer_connect (s := issue (.close s.handle) (offersClose i s)) hr hq rfl rfl rfl hop ha
  refine .head hissue (.head hclosed ?_)
  simpa [offersOpen, offersClose, enterOpen, issue, offerCall, log, State.closeEvents, Call.nameLength, hconn, hp]
    using StepsTo.refl _

/-- A `CONNECT` comes to offer `T.open`, with or without an old Connection to close (42 R182, R183). -/
theorem completes_offersOpen (h : s.atRest) (hi : Instr.isConnect i = true) (ht : s.tReady = true)
    {pre rest : List Answer} (ha : s.answers = pre ++ rest) (hpre : pre.length = if s.connOpen then 1 else 0) :
    Completes i s (offersOpen i rest s) := by
  have hexec := exec_connect h hi
  cases hconn : s.connOpen with
  | false =>
    rw [hconn] at hexec hpre
    obtain rfl : pre = [] := List.length_eq_zero_iff.1 hpre
    obtain rfl : s.answers = rest := ha
    exact ⟨_, hexec, .refl _⟩
  | true =>
    rw [hconn] at hexec hpre
    obtain ⟨a, rfl⟩ := List.length_eq_one_iff.1 hpre
    exact ⟨_, hexec, stepsTo_offersOpen h hi ht hconn ha⟩

/-- What a `CONNECT` at rest has changed once `T.open` is issued and `beats` of its name are forwarded. -/
theorem forwardBytes_issued (h : s.atRest) (hn : 0 < n) (beats : List Word) (rest : List Answer) (baud : Word)
    (databits parity stopbits : Byte) :
    forwardBytes beats [] (issue (.openPort n baud databits parity stopbits)
        (offersOpen (.connect n baud databits parity stopbits) rest s)) = { s with
      op := 0x80#8, cmd := some (.connect n baud databits parity stopbits), plWait := true, plTaken := beats.length
      payload := [], st := .sOpen, connOpen := false, answers := rest
      trace := s.trace ++ [.cmd (.connect n baud databits parity stopbits)] ++ s.closeEvents ++
        [.call (.openPort n baud databits parity stopbits)] ++ nameEvents beats } := by
  obtain ⟨-, -, htaken, -, hw⟩ := h
  simp [forwardBytes, issue, offersOpen, log, Call.nameLength, Instr.opcode, hn, htaken, hw]

/-- A `CONNECT` given fewer beats than its name has bytes closes an old Connection, opens, forwards the bytes there
are, and waits for more (42 R182, R183). -/
theorem waitsAt_connect (baud : Word) (databits parity stopbits : Byte) (h : s.atRest) (ht : s.tReady = true)
    (htw : s.twReady = true) (hlt : s.payload.length < n) {pre rest : List Answer} (ha : s.answers = pre ++ rest)
    (hpre : pre.length = if s.connOpen then 1 else 0) :
    WaitsAt (.connect n baud databits parity stopbits) s
      (forwardBytes s.payload [] (issue (.openPort n baud databits parity stopbits)
        (offersOpen (.connect n baud databits parity stopbits) rest s))) := by
  obtain ⟨u, hexec, hoffers⟩ :=
    completes_offersOpen (i := .connect n baud databits parity stopbits) h rfl ht ha hpre
  have hr : s.rst = false := rst_of_cmdReady h.1
  have hq : s.quiet = true := quiet_of_atRest h
  obtain ⟨-, hp, htaken, -, -⟩ := h
  have hissue := step_issue (s := offersOpen (.connect n baud databits parity stopbits) rest s) hr hq rfl hp rfl ht rfl
  have hnaming : decide (0 < n) = true := decide_eq_true (by omega)
  have hleft : s.plTaken + s.payload.length < n := by omega
  refine ⟨⟨u, hexec, hoffers.trans (.head hissue ?_)⟩, ?_⟩
  · exact stepsTo_forwardBytes hr hq hnaming rfl rfl rfl htw hleft (List.append_nil _).symm
  · exact step_no_beat hr hq hnaming rfl rfl (.inr rfl) hleft rfl

/-- Settles O42: each kind of payload by its step, each shortage by its run. -/
theorem payloadShortageWaits : Obligations.PayloadShortageWaits := by
  refine ⟨fun s i n beat rest hr hq hp hc hn hlt hb => ⟨fun hi => ?_, fun hi ht => ?_, fun hi ht => ?_⟩,
    fun s slave start n baud databits parity stopbits h hlt => ?_⟩
  · exact step_takeBeat hr hq hp hc hn hi hlt hb
  · rw [step_forward hr hq hp hc hn hi hb, if_neg (by simp [ht])]
  · rw [step_forward hr hq hp hc hn hi hb, if_pos ht]
    rfl
  · refine ⟨waitsAt_writeHolding h.1 hlt, waitsAt_crc16 h.1 hlt, waitsAt_crcCheck h.1 hlt,
      fun pre rest ht htw ha hpre => ?_⟩
    have hwaits := waitsAt_connect baud databits parity stopbits h.1 ht htw hlt ha hpre
    rw [forwardBytes_issued h.1 (Nat.zero_lt_of_lt hlt)] at hwaits
    exact hwaits

end Sys2Proof.Machine
end

section
/-! PROOFS. The CRC-16 (40_crc16.md R130 to R138) as algebra: a shift is linear over exclusive-or and loses nothing, so
the loop tells apart any two sequences that differ in one byte; and a trailer is right exactly when the loop over the
bytes and their trailer ends in 0. -/

namespace Sys2Proof.Machine

/-! ## The byte step (R130) -/

/-- A shift adds the polynomial or not, by a bit that is linear itself; added twice, the polynomial is gone. -/
theorem crcShift_xor (c d : Half) : crcShift (c ^^^ d) = crcShift c ^^^ crcShift d := by
  have hshift : (c ^^^ d) >>> 1 = c >>> 1 ^^^ d >>> 1 := BitVec.ushiftRight_xor_distrib ..
  rw [crcShift, crcShift, crcShift, hshift, BitVec.getLsbD_xor]
  cases c.getLsbD 0 <;> cases d.getLsbD 0
  · rfl
  · exact BitVec.xor_assoc ..
  · change c >>> 1 ^^^ d >>> 1 ^^^ Config.crcPoly = c >>> 1 ^^^ Config.crcPoly ^^^ d >>> 1
    ac_rfl
  · change c >>> 1 ^^^ d >>> 1 = c >>> 1 ^^^ Config.crcPoly ^^^ (d >>> 1 ^^^ Config.crcPoly)
    have hpoly : c >>> 1 ^^^ Config.crcPoly ^^^ (d >>> 1 ^^^ Config.crcPoly) =
        c >>> 1 ^^^ d >>> 1 ^^^ (Config.crcPoly ^^^ Config.crcPoly) := by ac_rfl
    rw [hpoly, BitVec.xor_self, BitVec.xor_zero]

theorem crcShifts_xor (n : Nat) (c d : Half) : crcShifts n (c ^^^ d) = crcShifts n c ^^^ crcShifts n d := by
  induction n generalizing c d with
  | zero => rfl
  | succ n ih => rw [crcShifts, crcShift_xor, ih]; rfl

/-- Only 0 is shifted to 0: the polynomial has the top bit, which a shift to the right clears. -/
theorem eq_zero_of_crcShift {c : Half} (h : crcShift c = 0) : c = 0 := by
  unfold crcShift at h
  split at h
  · have htop := congrArg (·.getLsbD 15) h
    simp [Config.crcPoly] at htop
  · rename_i hlow
    refine BitVec.eq_of_getLsbD_eq fun i hi => ?_
    cases i with
    | zero => simpa using hlow
    | succ i => simpa [Nat.add_comm] using congrArg (·.getLsbD i) h

theorem crcShift_injective : Function.Injective crcShift := fun c d h =>
  BitVec.xor_eq_zero_iff.1 (eq_zero_of_crcShift (by rw [crcShift_xor, h, BitVec.xor_self]; rfl))

theorem crcShifts_injective (n : Nat) : Function.Injective (crcShifts n) := by
  induction n with
  | zero => exact Function.injective_id
  | succ n ih => exact ih.comp crcShift_injective

/-- No two accumulators meet over one byte. -/
theorem crcUpdate_injective_left (x : Byte) : Function.Injective (crcUpdate · x) := fun _ _ h =>
  (BitVec.xor_left_inj _).1 (crcShifts_injective 8 h)

/-- Nor do two bytes on one accumulator. -/
theorem crcUpdate_injective_right (c : Half) : Function.Injective (crcUpdate c) := fun x y h => by
  have hwide : x.setWidth 16 = y.setWidth 16 := (BitVec.xor_right_inj _).1 (crcShifts_injective 8 h)
  simpa [BitVec.setWidth_setWidth_of_le] using congrArg (BitVec.setWidth 8) hwide

/-- Settles O12: exclusive-or passes through the byte's entry and each of the shifts, and a shift loses nothing. -/
theorem crcStepIsLinearAndInjective : Obligations.CrcStepIsLinearAndInjective := by
  refine ⟨fun a b x y => ?_, fun a b x h => crcUpdate_injective_left x h⟩
  rw [crcUpdate, crcUpdate, crcUpdate, ← crcShifts_xor, BitVec.setWidth_xor]
  ac_rfl

/-! ## The loop (R131, R138) -/

theorem crcFold_append (c : Half) (a b : List Byte) : crcFold c (a ++ b) = crcFold (crcFold c a) b :=
  List.foldl_append

/-- Settles O11. -/
theorem crcContinuesOverConcatenation : Obligations.CrcContinuesOverConcatenation :=
  crcFold_append _

/-- Two accumulators stay apart over the same bytes. -/
theorem crcFold_injective (b : List Byte) : Function.Injective (crcFold · b) := by
  induction b with
  | nil => exact Function.injective_id
  | cons x b ih => exact ih.comp (crcUpdate_injective_left x)

/-- A change of one byte changes the CRC. -/
theorem crc16_set_ne {b : List Byte} {i : Nat} (hi : i < b.length) {x : Byte} (hx : x ≠ b[i]) :
    crc16 (b.set i x) ≠ crc16 b := by
  rw [List.set_eq_take_append_cons_drop, if_pos hi]
  conv_rhs => rw [← List.take_append_drop i b, List.drop_eq_getElem_cons hi]
  intro h
  rw [crc16, crc16, crcFold_append, crcFold_append] at h
  exact hx (crcUpdate_injective_right _ (crcFold_injective _ h))

/-- Settles O10: the loop runs on each. -/
theorem crcOfKnownSequences : Obligations.CrcOfKnownSequences := by
  unfold Obligations.CrcOfKnownSequences
  decide +kernel

/-! ## The trailer (R132, R133, R137) -/

/-- While the bits shifted out are 0 the shifts are plain. -/
theorem crcShifts_of_low_zero {n : Nat} {c : Half} (h : ∀ i < n, c.getLsbD i = false) :
    crcShifts n c = c >>> n := by
  induction n generalizing c with
  | zero => simp [crcShifts]
  | succ n ih =>
    have hshift : crcShift c = c >>> 1 := by rw [crcShift, h 0 n.succ_pos, if_neg Bool.false_ne_true]
    rw [crcShifts, hshift, ih, ← BitVec.shiftRight_add, Nat.add_comm]
    intro i hi
    simpa using h (1 + i) (by omega)

/-- The low byte of an accumulator takes itself out and leaves the high one. -/
theorem crcUpdate_be16 (h l : Byte) : crcUpdate (be16 h l) l = h.setWidth 16 := by
  have hentry : be16 h l ^^^ l.setWidth 16 = h.setWidth 16 <<< 8 := by
    refine BitVec.eq_of_getLsbD_eq fun i hi => ?_
    by_cases hbyte : i < 8 <;> simp [be16, hi, hbyte, Nat.not_lt.1]
  have hlow (i : Nat) (hi : i < 8) : (h.setWidth 16 <<< 8).getLsbD i = false := by simp [hi]
  rw [crcUpdate, hentry, crcShifts_of_low_zero hlow]
  refine BitVec.eq_of_getLsbD_eq fun i hi => ?_
  simp only [BitVec.getLsbD_ushiftRight, BitVec.getLsbD_shiftLeft, BitVec.getLsbD_setWidth]
  by_cases hbyte : i < 8
  · simp [hi, show 8 + i < 16 by omega]
  · simp [BitVec.getLsbD_of_ge h i (by omega)]

/-- Two bytes bring an accumulator to 0 exactly when they are its own, low byte first. -/
theorem crcFold_pair_eq_zero (c : Half) (l h : Byte) : crcFold c [l, h] = 0 ↔ l = lo8 c ∧ h = hi8 c := by
  have hown (h l : Byte) : crcFold (be16 h l) [l, h] = 0 := by
    change crcUpdate (crcUpdate (be16 h l) l) h = 0
    rw [crcUpdate_be16, crcUpdate, BitVec.xor_self]
    rfl
  constructor
  · intro hz
    obtain rfl : c = be16 h l := crcFold_injective [l, h] (hz.trans (hown h l).symm)
    simp
  · rintro ⟨rfl, rfl⟩
    simpa using hown (hi8 c) (lo8 c)

/-- The trailer as a list of two bytes. -/
theorem drop_trailer {b : List Byte} (h : 2 ≤ b.length) :
    b.drop (b.length - 2) = [byteAt b (b.length - 2), byteAt b (b.length - 1)] := by
  have hnext : b.length - 2 + 1 = b.length - 1 := by omega
  have hend : b.length - 1 + 1 = b.length := by omega
  rw [List.drop_eq_getElem_cons (by omega), List.drop_eq_getElem_cons (by omega)]
  simp [byteAt, hnext, hend, show b.length - 2 < b.length by omega, show b.length - 1 < b.length by omega]

/-- A trailer is right exactly when the CRC over all the bytes, the trailer included, is 0. -/
theorem crcCheck_eq {b : List Byte} (h : 2 ≤ b.length) : crcCheck b = some (decide (crc16 b = 0)) := by
  have hfold : crc16 b = crcFold (crc16 (crcBody b)) (b.drop (b.length - 2)) := by
    rw [crc16, crc16, ← crcFold_append, crcBody, List.take_append_drop]
  rw [crcCheck, if_neg (by omega), Option.some_inj, hfold, drop_trailer h, Bool.eq_iff_iff, decide_eq_true_iff,
    crcFold_pair_eq_zero]
  simp

/-- Inverting a bit changes a byte. -/
theorem xor_bit_ne (x : Byte) {j : Nat} (hj : j < 8) : x ^^^ 1#8 <<< j ≠ x := by
  intro h
  have hbit := congrArg (·.getLsbD j) h
  simp [hj] at hbit

/-- Settles O13: a trailer is right when the whole CRC is 0, and one changed byte makes it another. -/
theorem everySingleBitErrorIsDetected : Obligations.EverySingleBitErrorIsDetected := by
  refine ⟨fun b i j hlen hok hi hj => ?_, fun b => ?_⟩
  · rw [crcCheck_eq hlen, Option.some_inj, decide_eq_true_iff] at hok
    have hbyte : byteAt b i = b[i] := by simp [byteAt, hi]
    have hne : crc16 (flipBit b i j) ≠ 0 := hok ▸ crc16_set_ne hi (hbyte ▸ xor_bit_ne _ hj)
    rw [crcCheck_eq (by simpa [flipBit] using hlen), decide_eq_false hne]
  · rw [crcAppend, crc16, crcFold_append]
    exact (crcFold_pair_eq_zero _ _ _).2 ⟨rfl, rfl⟩

end Sys2Proof.Machine
end

section
/-! PROOFS. The commands `CRC16` and `CRC_CHECK` to their end (40_crc16.md R134, R135): the beats that are still to
take, the answer once all are taken, and its delivery. -/

namespace Sys2Proof.Machine

variable {s : State} {i : Instr} {n : Nat}

/-! ## The answer -/

/-- A command whose payload transfer is over. -/
def payloadOver (s : State) : State := { s with plWait := false, plTaken := 0, plGood := true }

/-- A command whose payload transfer is over and whose answer `r` is delivered, with no value to follow. -/
def answered (r : Response) (s : State) : State :=
  { payloadOver s with cmd := none, trace := s.trace ++ [.rsp r] }

/-- With its payload taken a command answers `r`, and the host takes the answer (30 R95). -/
theorem stepsTo_answered (hr : s.rst = false) (hq : s.quiet = true) (hp : s.plWait = true) (hc : s.cmd = some i)
    (hready : s.rspReady = true) {r : Response}
    (h : payloadStep s = .moved (respond r.status r.exc r.result [] (payloadOver s))) : StepsTo s (answered r s) := by
  obtain ⟨ho, hv⟩ : s.rspOut = none ∧ s.rvOut = [] := by simpa [State.quiet] using hq
  have hanswer : step s = .next (respond r.status r.exc r.result [] (payloadOver s)) := by
    rw [step_payload hr hq hp hc, h, Progress.outcome]
  have hdeliver := (step_rsp (s := respond r.status r.exc r.result [] (payloadOver s)) hr rfl).trans (if_pos hready)
  refine .head hanswer (.head hdeliver ?_)
  simpa [deliver, respond, log, answered, payloadOver, ho, hv] using StepsTo.refl _

/-- A command at rest takes the beats it still wants, and answers `r` by what it makes of them. -/
theorem stepsTo_takeBeats_answered {beats rest : List Word} (hr : s.rst = false) (hq : s.quiet = true)
    (hp : s.plWait = true) (hc : s.cmd = some i) (hn : i.count? = some n) (hi : Instr.payloadAtRest i = true)
    (hready : s.rspReady = true) (hlen : s.plTaken + beats.length = n) (hb : s.payload = beats ++ rest) {r : Response}
    (h : payloadStep (takeBeats i beats rest s) =
      .moved (respond r.status r.exc r.result [] (payloadOver (takeBeats i beats rest s)))) :
    StepsTo s (answered r (takeBeats i beats rest s)) :=
  (stepsTo_takeBeats hr hq hp hc hn hi hlen.le hb).trans
    (stepsTo_answered (s := takeBeats i beats rest s) hr hq hp hc hready h)

/-- A command accepted with all its `n` beats offered makes `x` of them, and completes with the answer `r` that it has
for `x`. -/
theorem completes_payloadAtRest (h : s.accepts) (hi : Instr.payloadAtRest i = true) (hn : i.count? = some n)
    (hle : n ≤ s.payload.length) {x : BeatsKept}
    (hx : keepBeats i 0 (s.payload.take n) ⟨initialCrc i s.crc, true, s.vbuf⟩ = x) {r : Response}
    (hdone : ∀ u : State, u.cmd = some i → u.st = s.st → u.plTaken = n → u.crc = x.crc → u.plGood = x.good →
      payloadStep u = .moved (respond r.status r.exc r.result [] (payloadOver u))) :
    Completes i s { s with
      op := i.opcode, crc := x.crc, vbuf := x.vbuf, payload := s.payload.drop n
      trace := s.trace ++ [.cmd i] ++ (s.payload.take n).map .payload ++ [.rsp r] } := by
  obtain ⟨hrest, hready⟩ := h
  have hlen : (awaiting i s).plTaken + (s.payload.take n).length = n := by simp [awaiting, hle]
  have hr : s.rst = false := rst_of_cmdReady hrest.1
  have hq : s.quiet = true := quiet_of_atRest hrest
  have hrun := stepsTo_takeBeats_answered (s := awaiting i s) hr hq rfl rfl hn hi hready hlen
    (List.take_append_drop n s.payload).symm
    (hdone _ rfl rfl hlen (congrArg BeatsKept.crc hx) (congrArg BeatsKept.good hx))
  obtain ⟨hcmd, -, -⟩ := quiet_of_cmdReady hrest.1
  refine ⟨_, exec_payloadAtRest hrest hi, ?_⟩
  obtain ⟨-, hp, htaken, hgood, -⟩ := hrest
  simpa [answered, payloadOver, takeBeats, awaiting, hx, hcmd, hp, htaken, hgood] using hrun

/-! ## `CRC16` (R134) -/

/-- With all its beats taken `CRC16` answers `CRC`. -/
theorem payloadStep_crc16 (hc : s.cmd = some (.crc16 n)) (hall : s.plTaken = n) :
    payloadStep s =
      let r := Response.success s.crc
      .moved (respond r.status r.exc r.result [] (payloadOver s)) := by
  rw [payloadStep, hc]
  exact takePayload_done hall.ge

/-- Nothing is offered to the host while a payload is taken (42 R180). -/
theorem Inv.quiet_of_plWait (hs : Inv s) (hp : s.plWait = true) : s.quiet = true := by
  have h := hs.command
  cases hst : s.st <;> simp_all [State.commandAgrees]

/-- Settles O14: the beats fold into `CRC`, from its first value on or, when some were taken before, from the value
that the invariant gives it. -/
theorem crc16CommandAnswersTheCrc : Obligations.Crc16CommandAnswersTheCrc := by
  refine ⟨fun s n h hle => ?_, fun s n hs hr hready hp hc hle => ?_⟩
  · exact completes_payloadAtRest (i := .crc16 n) h rfl rfl hle (keepBeats_crc16 0 _ _)
      fun u hc _ hall hcrc _ => by rw [payloadStep_crc16 hc hall, hcrc]; rfl
  · obtain ⟨-, hwait⟩ := hs.payload
    obtain ⟨-, hcount, hcrc, -⟩ := hwait hp
    obtain ⟨hn, -⟩ := hcount _ n hc rfl
    have hall : s.plTaken + (s.payload.take (n - s.plTaken)).length = n := by simp; omega
    have hrun := stepsTo_takeBeats_answered (i := .crc16 n) hr (hs.quiet_of_plWait hp) hp hc rfl rfl hready hall
      (List.take_append_drop _ _).symm (payloadStep_crc16 hc hall)
    rw [takeBeats, keepBeats_crc16, hcrc n hc, crc16, ← crcFold_append, ← List.map_append] at hrun
    exact hrun

/-! ## `CRC_CHECK` (R135) -/

/-- What `CRC_CHECK` answers to `n` bytes, by the test of their trailer. -/
def crcCheckResponse (n : Nat) (good : Bool) : Response :=
  if n < 2 then Response.failure .malformedFrame 0
  else if good then Response.success 1
  else Response.failure .checksumError 0

/-- Outside an exchange `CRC_CHECK` answers without a flush (60 R277 b). -/
theorem crcCheckAnswer_outside (hx : s.st.inExchange = false) (good : Bool) :
    crcCheckAnswer n good s =
      let r := crcCheckResponse n good
      .moved (respond r.status r.exc r.result [] s) := by
  rw [crcCheckAnswer, raise_outside _ _ hx, raise_outside _ _ hx, crcCheckResponse]
  by_cases hn : n < 2
  · rw [if_pos hn, if_pos hn]
    rfl
  · rw [if_neg hn, if_neg hn]
    cases good <;> rfl

/-- With all its beats taken `CRC_CHECK` answers by their test. -/
theorem payloadStep_crcCheck (hc : s.cmd = some (.crcCheck n)) (hx : s.st.inExchange = false) (hall : s.plTaken = n) :
    payloadStep s =
      let r := crcCheckResponse n s.plGood
      .moved (respond r.status r.exc r.result [] (payloadOver s)) := by
  rw [payloadStep, hc]
  exact (takePayload_done hall.ge).trans (crcCheckAnswer_outside (s := payloadOver s) hx _)

theorem keepBeats_append (i : Instr) (k : Nat) (xs ys : List Word) (x : BeatsKept) :
    keepBeats i k (xs ++ ys) x = keepBeats i (k + xs.length) ys (keepBeats i k xs x) := by
  induction xs generalizing k x with
  | nil => rfl
  | cons beat xs ih =>
    rw [List.cons_append, keepBeats, keepBeats, ih, List.length_cons, Nat.add_assoc, Nat.add_comm 1]

/-- A `CRC_CHECK` of fewer than two bytes makes nothing of them. -/
theorem keepBeats_crcCheck_short (hn : n < 2) (k : Nat) (beats : List Word) (x : BeatsKept) :
    keepBeats (.crcCheck n) k beats x = x := by
  induction beats generalizing k with
  | nil => rfl
  | cons beat beats ih =>
    have hbody : ¬ k + 2 < n := by omega
    rw [keepBeats]
    simpa [beatCrc, beatGood, beatStore, hn, hbody] using ih (k + 1)

/-- A `CRC_CHECK` with all its bytes has folded those before the trailer, and compared the trailer with the result. -/
theorem keepBeats_crcCheck_all {beats : List Word} (hn : 2 ≤ n) (hlen : beats.length = n) (x : BeatsKept) :
    keepBeats (.crcCheck n) 0 beats x =
      let b := beats.map beatByte
      let c := crcFold x.crc (b.take (n - 2))
      { x with crc := c, good := x.good && decide (b.drop (n - 2) = [lo8 c, hi8 c]) } := by
  obtain ⟨l, h, htrailer⟩ := List.length_eq_two.1 (show (beats.drop (n - 2)).length = 2 by simp; omega)
  obtain ⟨body, rfl, rfl⟩ : ∃ body, beats = body ++ [l] ++ [h] ∧ n = body.length + 2 :=
    ⟨beats.take (n - 2), by rw [List.append_assoc]; simp [← htrailer], by simp; omega⟩
  rw [keepBeats_append, keepBeats_crcCheck (beats := body ++ [l]) hn (by simp)]
  simp [keepBeats, beatCrc, beatGood, beatStore, Bool.and_assoc]

/-- Settles O15: the bytes before the trailer make `CRC`, and the test of the trailer makes the answer. -/
theorem crcCheckCommandTestsTheTrailer : Obligations.CrcCheckCommandTestsTheTrailer := by
  intro s n h hle b
  have hx : s.st.inExchange = false := inExchange_of_isRest (isRest_of_cmdReady h.1.1)
  have hrun {x : BeatsKept} (hkept : keepBeats (.crcCheck n) 0 (s.payload.take n)
      ⟨initialCrc (.crcCheck n) s.crc, true, s.vbuf⟩ = x) :=
    completes_payloadAtRest (i := .crcCheck n) (r := crcCheckResponse n x.good) h rfl rfl hle hkept
      fun u hc hst hall _ hgood => hgood ▸ payloadStep_crcCheck hc (hst ▸ hx) hall
  by_cases hn : n < 2
  · simpa [crcCheckResponse, initialCrc, Instr.opcode, hn] using hrun (keepBeats_crcCheck_short hn 0 _ _)
  · simpa [crcCheckResponse, initialCrc, Instr.opcode, hn, Machine.crc16, b] using
      hrun (keepBeats_crcCheck_all (by omega) (by simp [hle]) _)

end Sys2Proof.Machine
end

section
/-! PROOFS. The frame decoder (41_frame_codec.md R153 to R160): the first four tests, what is left to decode after
them, and when the result is values, an echo or a slave exception. -/

namespace Sys2Proof.Machine

variable {b : List Byte} {slave fc : Byte} {vs : List Half}

/-! ## The first four tests (R154 to R157) -/

/-- An intact frame of `slave` that answers function `fc`: what the first four tests let through. -/
structure IsAnswer (b : List Byte) (slave fc : Byte) : Prop where
  long : 5 ≤ b.length
  intact : crcCheck b = some true
  sender : byteAt b 0 = slave
  function : byteAt b 1 &&& 0x7F#8 = fc

/-- The rest of the decoder, once the first four tests have passed (R158 to R160). -/
def decodeAnswer (b : List Byte) (fc : Byte) : FrameResult :=
  if byteAt b 1 &&& 0x80#8 ≠ 0 then .err (.slaveException (byteAt b 2))
  else if fc = 0x10#8 then decodeEcho b
  else decodeValues b

theorem decodeFrame_short (h : b.length < 5) : decodeFrame b slave fc = .err .malformedFrame :=
  if_pos h

theorem decodeFrame_corrupt (hlen : 5 ≤ b.length) (h : crcCheck b ≠ some true) :
    decodeFrame b slave fc = .err .checksumError :=
  (if_neg (Nat.not_lt.2 hlen)).trans (if_pos h)

theorem decodeFrame_of_intact (hlen : 5 ≤ b.length) (hcrc : crcCheck b = some true) :
    decodeFrame b slave fc =
      if byteAt b 0 ≠ slave then .err .unexpectedResponse
      else if byteAt b 1 &&& 0x7F#8 ≠ fc then .err .unexpectedResponse
      else decodeAnswer b fc :=
  (if_neg (Nat.not_lt.2 hlen)).trans (if_neg (not_not.2 hcrc))

theorem decodeFrame_of_isAnswer (h : IsAnswer b slave fc) : decodeFrame b slave fc = decodeAnswer b fc := by
  rw [decodeFrame_of_intact h.long h.intact, if_neg (not_not.2 h.sender), if_neg (not_not.2 h.function)]

/-- A frame that is no answer is refused by one of the first four tests, with one of three errors. -/
theorem decodeFrame_of_not_isAnswer (h : ¬ IsAnswer b slave fc) :
    ∃ e ∈ [FrameError.malformedFrame, .checksumError, .unexpectedResponse], decodeFrame b slave fc = .err e := by
  by_cases hlen : 5 ≤ b.length
  · by_cases hcrc : crcCheck b = some true
    · rw [decodeFrame_of_intact hlen hcrc]
      by_cases hslave : byteAt b 0 = slave
      · exact ⟨.unexpectedResponse, by simp,
          (if_neg (not_not.2 hslave)).trans (if_pos fun hfc => h ⟨hlen, hcrc, hslave, hfc⟩)⟩
      · exact ⟨.unexpectedResponse, by simp, if_pos hslave⟩
    · exact ⟨.checksumError, by simp, decodeFrame_corrupt hlen hcrc⟩
  · exact ⟨.malformedFrame, by simp, decodeFrame_short (Nat.not_le.1 hlen)⟩

/-- Any other result is what the rest of the decoder makes of an answer. -/
theorem decodeFrame_eq_iff {r : FrameResult}
    (hr : ∀ e ∈ [FrameError.malformedFrame, .checksumError, .unexpectedResponse], r ≠ .err e) :
    decodeFrame b slave fc = r ↔ IsAnswer b slave fc ∧ decodeAnswer b fc = r := by
  by_cases h : IsAnswer b slave fc
  · simp [h, decodeFrame_of_isAnswer h]
  · obtain ⟨e, he, hd⟩ := decodeFrame_of_not_isAnswer h
    simpa [h, hd] using (hr e he).symm

/-! ## The exception bit and the payload (R158 to R160) -/

theorem decodeAnswer_exception (hx : byteAt b 1 &&& 0x80#8 ≠ 0) :
    decodeAnswer b fc = .err (.slaveException (byteAt b 2)) :=
  if_pos hx

theorem decodeAnswer_write (hx : byteAt b 1 &&& 0x80#8 = 0) : decodeAnswer b 0x10#8 = decodeEcho b := by
  rw [decodeAnswer, if_neg (not_not.2 hx), if_pos rfl]

theorem decodeAnswer_read (hx : byteAt b 1 &&& 0x80#8 = 0) (hfc : fc ≠ 0x10#8) :
    decodeAnswer b fc = decodeValues b := by
  rw [decodeAnswer, if_neg (not_not.2 hx), if_neg hfc]

/-- Value `i` of `k` at offset `off` stands at bytes `off + 2i` and `off + 2i + 1`. -/
theorem valuesAt_eq_map (b : List Byte) (off k : Nat) :
    valuesAt b off k =
      (List.range k).map fun i => be16 (byteAt b (off + 2 * i)) (byteAt b (off + 1 + 2 * i)) := by
  induction k generalizing off with
  | zero => rfl
  | succ k ih =>
    rw [valuesAt, ih, List.range_succ_eq_map, List.map_cons, List.map_map]
    congr 1
    refine List.map_congr_left fun i _ => ?_
    simp only [Function.comp_apply]
    congr 2 <;> omega

theorem decodeValues_eq_values_iff (hlen : 5 ≤ b.length) :
    decodeValues b = .values vs ↔
      b.length = 5 + 2 * vs.length ∧ (byteAt b 2).toNat = 2 * vs.length ∧ valuesAt b 3 vs.length = vs := by
  rw [decodeValues]
  split
  next hbad =>
    refine iff_of_false (by simp) ?_
    rintro ⟨hb, hcount, -⟩
    omega
  next hgood =>
    constructor
    · intro h
      cases h
      rw [valuesAt_length]
      exact ⟨by omega, by omega, rfl⟩
    · rintro ⟨-, hcount, hvs⟩
      rw [hcount, Nat.mul_div_cancel_left _ two_pos, hvs]

theorem decodeEcho_eq_echo_iff {start count : Half} :
    decodeEcho b = .echo start count ↔
      b.length = 8 ∧ be16 (byteAt b 2) (byteAt b 3) = start ∧ be16 (byteAt b 4) (byteAt b 5) = count := by
  by_cases h : b.length = 8 <;> simp [decodeEcho, h]

/-- A read's payload is malformed or values (R159), and a write's is malformed or an echo (R160). -/
theorem decodeValues_kind (b : List Byte) :
    decodeValues b = .err .malformedFrame ∨ ∃ vs, decodeValues b = .values vs := by
  unfold decodeValues
  split
  · exact .inl rfl
  · exact .inr ⟨_, rfl⟩

theorem decodeEcho_kind (b : List Byte) :
    decodeEcho b = .err .malformedFrame ∨ ∃ start count, decodeEcho b = .echo start count := by
  unfold decodeEcho
  split
  · exact .inl rfl
  · exact .inr ⟨_, _, rfl⟩

/-! ## What is accepted -/

/-- Values are decoded from an answer to a read, without the exception bit, of the length it announces. -/
theorem decodeFrame_eq_values_iff :
    decodeFrame b slave fc = .values vs ↔
      IsAnswer b slave fc ∧ byteAt b 1 &&& 0x80#8 = 0 ∧ fc ≠ 0x10#8 ∧
        b.length = 5 + 2 * vs.length ∧ (byteAt b 2).toNat = 2 * vs.length ∧ valuesAt b 3 vs.length = vs := by
  rw [decodeFrame_eq_iff (by simp)]
  refine and_congr_right fun h => ?_
  rw [← decodeValues_eq_values_iff h.long]
  by_cases hx : byteAt b 1 &&& 0x80#8 = 0
  · by_cases hfc : fc = 0x10#8
    · subst hfc
      rcases decodeEcho_kind b with he | ⟨_, _, he⟩ <;> simp [decodeAnswer_write hx, he]
    · rw [decodeAnswer_read hx hfc, and_iff_right hx, and_iff_right hfc]
  · exact iff_of_false (by simp [decodeAnswer_exception hx]) fun h => hx h.1

/-- An echo is decoded from an answer of eight bytes to a write, without the exception bit. -/
theorem decodeFrame_eq_echo_iff {start count : Half} :
    decodeFrame b slave fc = .echo start count ↔
      IsAnswer b slave fc ∧ byteAt b 1 &&& 0x80#8 = 0 ∧ fc = 0x10#8 ∧
        b.length = 8 ∧ be16 (byteAt b 2) (byteAt b 3) = start ∧ be16 (byteAt b 4) (byteAt b 5) = count := by
  rw [decodeFrame_eq_iff (by simp), ← decodeEcho_eq_echo_iff]
  refine and_congr_right fun _ => ?_
  by_cases hx : byteAt b 1 &&& 0x80#8 = 0
  · by_cases hfc : fc = 0x10#8
    · rw [and_iff_right hx, and_iff_right hfc, hfc, decodeAnswer_write hx]
    · rcases decodeValues_kind b with hv | ⟨_, hv⟩ <;> simp [decodeAnswer_read hx hfc, hv, hfc]
  · exact iff_of_false (by simp [decodeAnswer_exception hx]) fun h => hx h.1

/-- A slave exception is decoded from an answer with the exception bit. -/
theorem decodeFrame_eq_exception_iff {code : Byte} :
    decodeFrame b slave fc = .err (.slaveException code) ↔
      IsAnswer b slave fc ∧ byteAt b 1 &&& 0x80#8 ≠ 0 ∧ byteAt b 2 = code := by
  rw [decodeFrame_eq_iff (by simp)]
  refine and_congr_right fun _ => ?_
  by_cases hx : byteAt b 1 &&& 0x80#8 = 0
  · refine iff_of_false ?_ fun h => h.1 hx
    by_cases hfc : fc = 0x10#8
    · subst hfc
      rcases decodeEcho_kind b with he | ⟨_, _, he⟩ <;> simp [decodeAnswer_write hx, he]
    · rcases decodeValues_kind b with hv | ⟨_, hv⟩ <;> simp [decodeAnswer_read hx hfc, hv]
  · rw [decodeAnswer_exception hx, and_iff_right hx]
    simp

/-- Settles O18: the tests one after the other, each with the ones before it passed. -/
theorem decodeTestsFrameInOrder : Obligations.DecodeTestsFrameInOrder := by
  intro b slave fc
  refine ⟨decodeFrame_short, fun hlen => ⟨fun h => decodeFrame_corrupt hlen (by simp [h]), fun hcrc => ?_⟩⟩
  refine ⟨fun hslave => ?_, fun hslave => ⟨fun hfc => ?_, fun hfc => ?_⟩⟩
  · rw [decodeFrame_of_intact hlen hcrc, if_pos hslave]
  · rw [decodeFrame_of_intact hlen hcrc, if_neg (not_not.2 hslave), if_pos hfc]
  rw [decodeFrame_of_isAnswer ⟨hlen, hcrc, hslave, hfc⟩]
  refine ⟨decodeAnswer_exception, fun hx => ⟨fun hread => ?_, fun hwrite => ?_⟩⟩
  · have hfc : fc ≠ 0x10#8 := by rcases hread with rfl | rfl <;> decide
    rw [decodeAnswer_read hx hfc]
    exact ⟨fun hbad => if_pos hbad, fun hcount heven => by rw [decodeValues, if_neg (by omega), valuesAt_eq_map]⟩
  · rw [hwrite, decodeAnswer_write hx]
    exact ⟨fun hbad => if_pos hbad, fun h8 => if_neg (not_not.2 h8)⟩

/-- Settles O19: the byte count is the length of the values, and the whole frame fits its buffer. -/
theorem decodedValuesAreTheFrameFields : Obligations.DecodedValuesAreTheFrameFields := by
  intro b slave fc vs hfit h
  obtain ⟨-, -, -, hlen, -, hvs⟩ := decodeFrame_eq_values_iff.1 h
  refine ⟨by omega, by omega, fun i hi => ?_⟩
  rw [← hvs, valuesAt_eq_map, List.getElem?_map, List.getElem?_range hi]
  rfl

end Sys2Proof.Machine
end

section
/-! PROOFS. Frames and what they decode to (41_frame_codec.md R162; 30_encoding.md R102, R104, R105): the bytes of a
frame from its fields, so that each response decodes to what it carries and nothing else does. -/

namespace Sys2Proof.Machine

variable {b : List Byte} {slave fc : Byte} {vs : List Half}

/-! ## The bytes of a frame -/

/-- An intact frame is its body and the body's trailer (40 R132, R133). -/
theorem eq_crcAppend_of_crcCheck (h : crcCheck b = some true) : b = crcAppend (crcBody b) := by
  have hlen : 2 ≤ b.length := by
    by_contra hshort
    rw [crcCheck, if_pos (Nat.not_le.1 hshort)] at h
    cases h
  rw [crcCheck, if_neg (Nat.not_lt.2 hlen)] at h
  obtain ⟨hlo, hhi⟩ : byteAt b (b.length - 2) = lo8 (crc16 (crcBody b)) ∧
      byteAt b (b.length - 1) = hi8 (crc16 (crcBody b)) := by simpa using h
  rw [crcAppend, ← hlo, ← hhi, ← drop_trailer hlen, crcBody, List.take_append_drop]

theorem take_eq_map_byteAt {k : Nat} (h : k ≤ b.length) : b.take k = (List.range k).map (byteAt b) := by
  refine List.ext_getElem (by simpa using h) fun i hi _ => ?_
  have hb : i < b.length := by rw [List.length_take] at hi; omega
  simp [byteAt, hb]

theorem drop_eq_byteAt_cons {i : Nat} (h : i < b.length) : b.drop i = byteAt b i :: b.drop (i + 1) := by
  rw [List.drop_eq_getElem_cons h]
  simp [byteAt, h]

/-- The values of a stretch of a frame are its bytes (30 R106). -/
theorem valueBytes_valuesAt {off k : Nat} (h : off + 2 * k ≤ b.length) :
    valueBytes (valuesAt b off k) = (b.drop off).take (2 * k) := by
  induction k generalizing off with
  | zero => rfl
  | succ k ih =>
    rw [valuesAt, valueBytes, ih (by omega), hi8_be16, lo8_be16, drop_eq_byteAt_cons (i := off) (by omega),
      drop_eq_byteAt_cons (i := off + 1) (by omega), Nat.mul_succ]
    rfl

/-- The values written into a frame are those read from it. -/
theorem valuesAt_valueBytes (pre post : List Byte) (vs : List Half) :
    valuesAt (pre ++ valueBytes vs ++ post) pre.length vs.length = vs := by
  induction vs generalizing pre with
  | nil => rfl
  | cons v vs ih =>
    have hrest := ih (pre ++ [hi8 v, lo8 v])
    have hhi : byteAt (pre ++ valueBytes (v :: vs) ++ post) pre.length = hi8 v := by
      rw [List.append_assoc, byteAt_append_right le_rfl, Nat.sub_self]
      rfl
    have hlo : byteAt (pre ++ valueBytes (v :: vs) ++ post) (pre.length + 1) = lo8 v := by
      rw [List.append_assoc, byteAt_append_right (Nat.le_add_right _ 1), Nat.add_sub_cancel_left]
      rfl
    rw [List.length_cons, valuesAt, hhi, hlo, be16_hi8_lo8]
    simpa [valueBytes] using hrest

/-- The two tests of the function byte fix it (41 R157, R158). -/
theorem functionByte_eq {x : Byte} (h : x &&& 0x7F#8 = fc) :
    (x &&& 0x80#8 = 0 → x = fc) ∧ (x &&& 0x80#8 ≠ 0 → x = fc ||| 0x80#8) := by
  subst h
  revert x
  decide

/-! ## From the result to the frame -/

/-- Settles O20: the frame is its body and trailer, and the body is read off the tests it has passed. -/
theorem acceptedFrameIsTheResponseItMeans : Obligations.AcceptedFrameIsTheResponseItMeans := by
  refine fun b slave => ⟨fun k vs h => ?_, fun start count h => ?_, fun fc code hlen h => ?_⟩
  · obtain ⟨ha, hx, -, hlen, hcount, hvs⟩ := decodeFrame_eq_values_iff.1 h
    have hbyte : byteAt b 2 = BitVec.ofNat 8 (2 * vs.length) := by
      rw [← hcount, BitVec.ofNat_toNat, BitVec.setWidth_eq]
    have hbody : crcBody b = [slave, k.fc, BitVec.ofNat 8 (2 * vs.length)] ++ valueBytes vs := by
      rw [crcBody, show b.length - 2 = 3 + 2 * vs.length by omega, List.take_add,
        take_eq_map_byteAt (by omega), ← valueBytes_valuesAt (by omega), hvs,
        ← ha.sender, ← (functionByte_eq ha.function).1 hx, ← hbyte]
      rfl
    rw [readResponse, ← hbody]
    exact eq_crcAppend_of_crcCheck ha.intact
  · obtain ⟨ha, hx, -, hlen, rfl, rfl⟩ := decodeFrame_eq_echo_iff.1 h
    have hbody : crcBody b = [slave, 0x10#8, byteAt b 2, byteAt b 3, byteAt b 4, byteAt b 5] := by
      rw [crcBody, take_eq_map_byteAt (Nat.sub_le _ 2), hlen, ← ha.sender, ← (functionByte_eq ha.function).1 hx]
      rfl
    rw [writeResponse, hi8_be16, lo8_be16, hi8_be16, lo8_be16, ← hbody]
    exact eq_crcAppend_of_crcCheck ha.intact
  · obtain ⟨ha, hx, rfl⟩ := decodeFrame_eq_exception_iff.1 h
    have hbody : crcBody b = [slave, fc ||| 0x80#8, byteAt b 2] := by
      rw [crcBody, take_eq_map_byteAt (Nat.sub_le _ 2), hlen, ← ha.sender, ← (functionByte_eq ha.function).2 hx]
      rfl
    rw [← hbody]
    exact eq_crcAppend_of_crcCheck ha.intact

/-! ## From the frame to the result -/

/-- A frame made by `crcAppend` passes the first four tests for its own slave and function. -/
theorem isAnswer_crcAppend (slave x y : Byte) (rest : List Byte) :
    IsAnswer (crcAppend (slave :: x :: y :: rest)) slave (x &&& 0x7F#8) where
  long := by simp
  intact := crcCheck_crcAppend _
  sender := rfl
  function := rfl

/-- A read response of up to 125 values decodes to them (R162 b). -/
theorem decodeFrame_readResponse (slave : Byte) (k : ReadKind) (h : vs.length ≤ 125) :
    decodeFrame (readResponse slave k vs) slave k.fc = .values vs := by
  have hfc : k.fc &&& 0x7F#8 = k.fc ∧ k.fc &&& 0x80#8 = 0 ∧ k.fc ≠ 0x10#8 := by cases k <;> decide
  obtain ⟨hmask, hbit, hread⟩ := hfc
  refine decodeFrame_eq_values_iff.2 ⟨?_, hbit, hread, ?_, ?_, ?_⟩
  · exact hmask ▸ isAnswer_crcAppend slave k.fc (BitVec.ofNat 8 (2 * vs.length)) (valueBytes vs)
  · simp [readResponse]
    omega
  · exact (BitVec.toNat_ofNat _ _).trans (Nat.mod_eq_of_lt (by omega))
  · exact valuesAt_valueBytes [slave, k.fc, BitVec.ofNat 8 (2 * vs.length)] _ vs

/-- A write response decodes to its address and count (R162 c). -/
theorem decodeFrame_writeResponse (slave : Byte) (start count : Half) :
    decodeFrame (writeResponse slave start count) slave 0x10#8 = .echo start count :=
  decodeFrame_eq_echo_iff.2
    ⟨isAnswer_crcAppend slave 0x10#8 _ _, show 0x10#8 &&& 0x80#8 = 0 by decide, rfl, rfl, be16_hi8_lo8 start,
      be16_hi8_lo8 count⟩

/-- Settles O21: each response by its decoding, a corrupt frame by its CRC; and the first six bytes of a write request
are the body of its response. -/
theorem framesRoundTripAndCorruptionIsSeen : Obligations.FramesRoundTripAndCorruptionIsSeen := by
  refine ⟨crcCheck_crcAppend, fun slave k vs => decodeFrame_readResponse slave k, decodeFrame_writeResponse,
    fun b i j hlen hcrc hi hj s f => ?_, fun s a vs _ => ⟨rfl, ?_⟩⟩
  · have hseen := everySingleBitErrorIsDetected.1 b i j (by omega) hcrc hi hj
    exact decodeFrame_corrupt (by simpa [flipBit] using hlen) (by simp [hseen])
  · exact decodeFrame_writeResponse s a (BitVec.ofNat 16 vs.length)

end Sys2Proof.Machine
end

section
/-! PROOFS. How a command ends (30_encoding.md R95; 42_bus_session.md R180, R202): the delivery of its answer, the issue
of a call and the taking of its answer by a step each, and the flush of a failure with the response that follows it. -/

namespace Sys2Proof.Machine

variable {s t u : State} {x : SessionState} {i : Instr}

theorem Completes.trans (h : Completes i s u) (ht : StepsTo u t) : Completes i s t := by
  obtain ⟨v, hexec, hv⟩ := h
  exact ⟨v, hexec, hv.trans ht⟩

/-! ## The answer -/

/-- The command over, its answer `r` delivered with no value to follow. -/
def concluded (r : Response) (s : State) : State :=
  { s with cmd := none, rspOut := none, rvOut := [], trace := s.trace ++ [.rsp r] }

/-- An answer offered is delivered to a host that takes it, and the command is over (30 R95). -/
theorem stepsTo_concluded (hr : s.rst = false) (hready : s.rspReady = true) (r : Response) :
    StepsTo (respond r.status r.exc r.result [] s) (concluded r s) :=
  .head ((step_rsp (s := respond r.status r.exc r.result [] s) hr rfl).trans (if_pos hready)) (.refl _)

/-- A command whose first act is its answer. -/
theorem completes_concluded (h : s.accepts) {r : Response}
    (hf : Instr.first i (accept i s) = .moved (respond r.status r.exc r.result [] u)) (hrst : u.rst = s.rst)
    (hready : u.rspReady = s.rspReady) : Completes i s (concluded r u) := by
  obtain ⟨⟨hc, -⟩, hhost⟩ := h
  refine ⟨_, by rw [exec_ready hc, hf, Progress.outcome], ?_⟩
  exact stepsTo_concluded (hrst.trans (rst_of_cmdReady hc)) (hready.trans hhost) r

/-! ## A call and its answer -/

/-- At rest the engine waits for no payload, no host and no issue of a call. -/
theorem inState_of_atRest (h : s.atRest) : s.inState s.st := by
  have hq := quiet_of_atRest h
  obtain ⟨hc, hp, -, -, hw⟩ := h
  exact ⟨rfl, hp, hw, hq, rst_of_cmdReady hc⟩

/-- An engine that waits neither for payload nor for the host nor for the issue of its call is at its event. -/
theorem step_event (h : s.inState x) (hx : x.isRest = false) : step s = (sessionStep s).outcome s := by
  obtain ⟨hst, hp, hw, hq, hr⟩ := h
  rw [step_quiet hr hq (by rw [hst, hx]) hp, if_neg (by simp [hw])]

/-- What each state makes of the answer it waits for (42 R180). -/
def SessionState.onAnswer : SessionState → Answer → State → Progress
  | .sClosing => closeAnswer
  | .sOpen => openAnswer
  | .sDrain => drainAnswer
  | .sSyncFlush => syncFlushAnswer
  | .sTx => writeAnswer
  | .sRx => readAnswer
  | .sErrFlush => failReturn
  | .sDisc | .sSettle | .sIdle | .sCheck => fun _ _ => .blocked

theorem sessionStep_onAnswer (h : s.st.awaitsAnswer = true) : sessionStep s = takeAnswer s.st.onAnswer s := by
  unfold sessionStep
  cases hst : s.st <;> rw [hst] at h <;> cases h <;> rfl

/-- An answer that is there is taken. -/
theorem step_answer {a : Answer} {rest : List Answer} (h : s.inState x) (hx : x.awaitsAnswer = true)
    (ha : s.answers = a :: rest) (hm : x.onAnswer a { s with answers := rest } = .moved t) : step s = .next t := by
  obtain rfl := h.1
  rw [step_event h (isRest_of_awaitsAnswer hx), sessionStep_onAnswer hx, takeAnswer_cons ha, hm, Progress.outcome]

/-- A call with no bytes of a name to follow, issued, leaves its line in the history (30 R98). -/
theorem step_offerCall {c : Call} (h : s.inState x) (hx : x.awaitsAnswer = true) (ht : s.tReady = true)
    (hc : s.portCall = some c) (hn : c.nameLength = 0) : step (offerCall s) = .next (log (.call c) s) := by
  obtain ⟨rfl, hp, hw, hq, hr⟩ := h
  have hissue := step_issue (s := offerCall s) hr hq (isRest_of_awaitsAnswer hx) hp rfl ht hc
  have hback : { s with callWait := false, plWait := decide (0 < c.nameLength) } = s := by
    cases s
    simp_all
  rw [hissue, issue]
  exact congrArg (fun v => Host.Outcome.next (log (.call c) v)) hback

/-- A call is issued and answered, and the state makes `t` of the answer. -/
theorem stepsTo_answer {c : Call} {a : Answer} {rest : List Answer} (h : s.inState x) (hx : x.awaitsAnswer = true)
    (ht : s.tReady = true) (hc : s.portCall = some c) (hn : c.nameLength = 0) (ha : s.answers = a :: rest)
    (hm : x.onAnswer a (log (.call c) { s with answers := rest }) = .moved t) : StepsTo (offerCall s) t :=
  .head (step_offerCall h hx ht hc hn) (.head (step_answer (s := log (.call c) s) h hx ha hm) (.refl t))

/-- A call is issued and answered, and the state makes of the answer the response `r` that ends the command. -/
theorem stepsTo_answer_concluded {c : Call} {a : Answer} {rest : List Answer} {r : Response} (h : s.inState x)
    (hx : x.awaitsAnswer = true) (hhost : s.rspReady = true) (ht : s.tReady = true) (hc : s.portCall = some c)
    (hn : c.nameLength = 0) (ha : s.answers = a :: rest)
    (hm : x.onAnswer a (log (.call c) { s with answers := rest }) =
      .moved (respond r.status r.exc r.result [] u))
    (hrst : u.rst = s.rst) (hready : u.rspReady = s.rspReady) : StepsTo (offerCall s) (concluded r u) := by
  refine (stepsTo_answer h hx ht hc hn ha hm).trans ?_
  obtain ⟨-, -, -, -, hr⟩ := h
  exact stepsTo_concluded (hrst.trans hr) (hready.trans hhost) r

/-! ## The flush of a failure -/

/-- A failure after the write of an exchange is flushed once, and its response follows the answer (42 R202, 60 R278). -/
theorem stepsTo_flushedFailure (h : s.inState x) (hhost : s.rspReady = true) (ht : s.tReady = true) {f : Answer}
    {rest : List Answer} (ha : s.answers = f :: rest) (e : Status) (c : Byte) :
    StepsTo (failFlush e c s) (s.flushedFailure e c rest) := by
  obtain ⟨-, hlive⟩ := h
  have hrun := stepsTo_answer_concluded (s := { s with err := e.code, exc := c, st := .sErrFlush })
    (x := .sErrFlush) (r := Response.failure e c) ⟨rfl, hlive⟩ rfl hhost ht rfl rfl ha rfl rfl rfl
  obtain ⟨-, -, hq, -⟩ := hlive
  obtain ⟨ho, hv⟩ : s.rspOut = none ∧ s.rvOut = [] := by simpa [State.quiet] using hq
  simpa [failFlush, State.flushedFailure, concluded, log, ho, hv] using hrun

end Sys2Proof.Machine
end

section
/-! PROOFS. `SET_TIMING` and `DISCONNECT` to their end (42_bus_session.md R190, R191). -/

namespace Sys2Proof.Machine

variable {s : State}

/-- Settles O24: the acceptance writes the timers and offers the answer, the next step delivers it. -/
theorem setTimingWritesTheTimers : Obligations.SetTimingWritesTheTimers := by
  intro s settle resp drain h
  obtain ⟨hcmd, ho, hv⟩ := quiet_of_cmdReady h.1.1
  have hrun := completes_concluded (i := .setTiming settle resp drain) (r := Response.success 0) h rfl rfl rfl
  rw [accept_atRest h.1] at hrun
  simpa [concluded, Instr.opcode, hcmd, ho, hv] using hrun

/-- Without a Connection the first act of a `DISCONNECT` is its answer (42 R190). -/
theorem first_disconnect (hconn : s.connOpen = false) :
    Instr.first .disconnect s = .moved (respond Status.ok.code 0 1 [] s) := by
  simp [Instr.first, hconn]

/-- With one, its `T.close` is offered. -/
theorem exec_disconnect_connected (h : s.atRest) (hconn : s.connOpen = true) :
    exec .disconnect s = .next (offerCall { s with
      cmd := some .disconnect, op := 0x81#8, st := .sClosing, trace := s.trace ++ [.cmd .disconnect] }) := by
  rw [exec_ready h.1, accept_atRest h, Instr.first, hconn]
  rfl

/-- In a `DISCONNECT` the answer of the close leads to `S_DISC` and the response (42 R180, R190). -/
theorem closeAnswer_disconnect (hop : s.op = 0x81#8) (a : Answer) :
    closeAnswer a s = .moved (respond Status.ok.code 0 1 []
      (log (.reply .closed) { s with connOpen := false, st := .sDisc })) := by
  rw [closeAnswer, hop]
  rfl

/-- A `DISCONNECT` on a Connection closes it once and answers `OK` 1. -/
theorem completes_disconnect {a : Answer} {rest : List Answer} (h : s.accepts) (hconn : s.connOpen = true)
    (ht : s.tReady = true) (ha : s.answers = a :: rest) :
    Completes .disconnect s (concluded (Response.success 1) { s with
      op := 0x81#8, st := .sDisc, connOpen := false, answers := rest
      trace := s.trace ++ [.cmd .disconnect, .call (.close s.handle), .reply .closed] }) := by
  obtain ⟨hrest, hhost⟩ := h
  obtain ⟨-, hlive⟩ := inState_of_atRest hrest
  refine ⟨_, exec_disconnect_connected hrest hconn, ?_⟩
  have hrun := stepsTo_answer_concluded (x := .sClosing) (r := Response.success 1) (s := { s with
    cmd := some .disconnect, op := 0x81#8, st := .sClosing, trace := s.trace ++ [.cmd .disconnect] })
    ⟨rfl, hlive⟩ rfl hhost ht rfl rfl ha (closeAnswer_disconnect rfl a) rfl rfl
  simpa [concluded, log] using hrun

/-- Settles O25: without a Connection the first act is the answer; with one the close is issued and answered first. -/
theorem disconnectClosesOnceOrNothing : Obligations.DisconnectClosesOnceOrNothing := by
  intro s h
  obtain ⟨hcmd, ho, hv⟩ := quiet_of_cmdReady h.1.1
  refine ⟨fun hconn => ?_, fun a rest hconn ht ha => ?_⟩
  · have hrun := completes_concluded (r := Response.success 1) h (first_disconnect hconn) rfl rfl
    rw [accept_atRest h.1] at hrun
    simpa [concluded, Instr.opcode, hcmd, ho, hv] using hrun
  · simpa [concluded, hcmd, ho, hv] using completes_disconnect h hconn ht ha

end Sys2Proof.Machine
end

section
/-! PROOFS. The write and flush discipline (42_bus_session.md R202, R203; 60_exceptions.md R275): with no record to
deliver, how far the exchange has gone is a matter of `ST` and the call offered; each event a step logs leads from the
stage of the old state to that of the new one. The answers that end an exchange leave its stage to the record they offer,
whose delivery is allowed only there. -/

namespace Sys2Proof.Machine

variable {s t : State} {ph : ExchangePhase}

/-! ## The stage of a state -/

/-- How far the exchange has gone, by the state `ST` and the call still to be issued (42 R180). -/
def State.stage (s : State) : ExchangePhase :=
  match s.st with
  | .sTx => if s.callWait then .noWrite else .written
  | .sRx => .written
  | .sCheck => .written
  | .sErrFlush => if s.callWait then .written else .flushed
  | .sDisc | .sClosing | .sOpen | .sDrain | .sSettle | .sSyncFlush | .sIdle => .noWrite

/-- A state allows its own stage, whatever it has to deliver. -/
theorem exchangeAllowed_stage (s : State) : s.exchangeAllowed s.stage = true := by
  unfold State.stage State.exchangeAllowed
  cases s.st <;> cases s.rspOut <;> simp

/-- With no record to deliver it allows no other. -/
theorem eq_stage_of_exchangeAllowed (ho : s.rspOut = none) (h : s.exchangeAllowed ph = true) : ph = s.stage := by
  unfold State.exchangeAllowed at h
  unfold State.stage
  rw [ho] at h
  cases hst : s.st <;> simpa [hst] using h

theorem stage_of_isRest (h : s.st.isRest = true) : s.stage = .noWrite := by
  unfold State.stage
  cases hst : s.st <;> simp_all [SessionState.isRest]

/-! ## The history and the stage -/

theorem FlushesKept.exchangePhase_eq (hk : FlushesKept s) (ho : s.rspOut = none) :
    exchangePhase s.trace = some s.stage := by
  obtain ⟨ph, hp, ha⟩ := hk
  rw [hp, eq_stage_of_exchangeAllowed ho ha]

theorem exchangePhase_append (hp : exchangePhase s.trace = some ph) (e : Event) :
    exchangePhase (s.trace ++ [e]) = exchangeAfter (some ph) e := by
  rw [exchangePhase, List.foldl_append]
  exact congrArg (exchangeAfter · e) hp

theorem flushesKept_of_stage (h : exchangePhase t.trace = some t.stage) : FlushesKept t :=
  ⟨_, h, exchangeAllowed_stage t⟩

/-- An event that leads from the stage of the old state to that of the new one keeps the discipline. -/
theorem FlushesKept.log {e : Event} (hk : FlushesKept s) (ho : s.rspOut = none) (ht : t.trace = s.trace ++ [e])
    (he : exchangeAfter (some s.stage) e = some t.stage) : FlushesKept t :=
  flushesKept_of_stage (by rw [ht, exchangePhase_append (hk.exchangePhase_eq ho), he])

theorem FlushesKept.of_eq (hk : FlushesKept s) (ho : s.rspOut = none) (ht : t.trace = s.trace)
    (hst : t.stage = s.stage) : FlushesKept t :=
  flushesKept_of_stage (by rw [ht, hk.exchangePhase_eq ho, hst])

/-! ## A failure and the begin of an exchange -/

theorem raise_stage_of_inExchange (h : s.st.inExchange = true) (e : Status) (c : Byte) :
    (raise e c s).stage = .written := by
  rw [raise_inExchange _ _ h]
  rfl

theorem raise_stage_of_isRest (h : s.st.isRest = true) (e : Status) (c : Byte) : (raise e c s).stage = .noWrite := by
  rw [raise_outside _ _ (inExchange_of_isRest h)]
  exact stage_of_isRest h

/-- At its begin an exchange has its write still to issue. -/
theorem beginExchange_stage {slave : Byte} (h : beginExchange slave s = .moved t) (hst : s.st.isRest = true) :
    t.stage = .noWrite := by
  rcases beginExchange_moved h with ⟨-, rfl⟩ | ⟨-, rfl⟩
  · rfl
  · exact raise_stage_of_isRest hst _ _

theorem readRequest_stage {k : ReadKind} {slave : Byte} {start : Half} {n : Nat}
    (h : readRequest k slave start n s = .moved t) (hst : s.st.isRest = true) : t.stage = .noWrite := by
  rcases readRequest_moved h with ⟨-, rfl⟩ | ⟨-, u, hu, ht⟩
  · exact raise_stage_of_isRest hst _ _
  · obtain ⟨-, rfl⟩ := loadRequest_moved hu
    exact beginExchange_stage ht hst

theorem writeRequest_stage {slave : Byte} {start : Half} {n : Nat} {good : Bool}
    (h : writeRequest slave start n good s = .moved t) (hst : s.st.isRest = true) : t.stage = .noWrite := by
  rcases writeRequest_moved h with ⟨-, rfl⟩ | ⟨-, -, rfl⟩ | ⟨-, -, u, hu, ht⟩
  · exact raise_stage_of_isRest hst _ _
  · exact raise_stage_of_isRest hst _ _
  · obtain ⟨-, rfl⟩ := loadRequest_moved hu
    exact beginExchange_stage ht hst

theorem crcCheckAnswer_stage {n : Nat} {good : Bool} (h : crcCheckAnswer n good s = .moved t)
    (hst : s.st.isRest = true) : t.stage = .noWrite := by
  rw [crcCheckAnswer_outside (inExchange_of_isRest hst)] at h
  cases h
  exact stage_of_isRest hst

/-- What a command does first writes and flushes nothing. -/
theorem first_stage {i : Instr} (h : Instr.first i s = .moved t) (hst : s.st.isRest = true) : t.stage = .noWrite := by
  cases i with
  | readHolding slave start n => exact readRequest_stage h hst
  | readInput slave start n => exact readRequest_stage h hst
  | connect n baud databits parity stopbits => cases h; split <;> rfl
  | disconnect =>
    cases h
    split
    · rfl
    · exact stage_of_isRest hst
  | _ =>
    cases h
    exact stage_of_isRest hst

/-! ## The payload -/

theorem takePayload_stage {i : Instr} {n : Nat} {f : Bool → State → Progress}
    (h : takePayload i n f s = .moved t) (hst : s.st.isRest = true)
    (hf : ∀ good u, f good u = .moved t → u.st.isRest = true → t.stage = .noWrite) : t.stage = .noWrite := by
  rcases takePayload_moved h with ⟨-, beat, rest, -, rfl⟩ | ⟨-, h⟩
  · exact stage_of_isRest hst
  · exact hf _ _ h hst

/-- A payload transfer happens outside every exchange, and may begin one. -/
theorem Inv.payloadStep_stage (hs : Inv s) (hp : s.plWait = true) (h : payloadStep s = .moved t) :
    s.stage = .noWrite ∧ t.stage = .noWrite := by
  have hst := hs.st_of_plWait hp
  obtain ⟨i, n, hc, -, h⟩ := payloadStep_moved h
  simp only [State.cmdIs, hc, Option.any_some] at hst
  rcases h with ⟨slave, start, rfl, h⟩ | ⟨baud, databits, parity, stopbits, rfl, h⟩ | ⟨rfl, h⟩ | ⟨rfl, h⟩
  case inr.inl =>
    obtain ⟨hopen, -⟩ := hst.resolve_left fun h => nomatch h.2
    obtain ⟨-, beat, rest, -, rfl⟩ := forwardStep_moved h
    simp [State.stage, hopen]
  all_goals
    obtain ⟨hrest, -⟩ := hst.resolve_right fun h => nomatch h.2
    refine ⟨stage_of_isRest hrest, takePayload_stage h hrest fun good u h hu => ?_⟩
  · exact writeRequest_stage h hu
  · cases h
    exact stage_of_isRest hu
  · exact crcCheckAnswer_stage h hu

theorem FlushesKept.payloadStep (hs : Inv s) (hk : FlushesKept s) (hp : s.plWait = true) (ho : s.rspOut = none)
    (h : payloadStep s = .moved t) : FlushesKept t := by
  obtain ⟨hst, hst'⟩ := hs.payloadStep_stage hp h
  rcases payloadStep_trace h with ht | ⟨beat, ht⟩ | ⟨beat, ht⟩
  · exact hk.of_eq ho ht (hst'.trans hst.symm)
  · exact hk.log ho ht (by rw [hst, hst']; rfl)
  · exact hk.log ho ht (by rw [hst, hst']; rfl)

/-! ## A call and its answer -/

/-- The write of an exchange and the flush of its failure are the calls that move the exchange on (42 R194, R202). -/
theorem FlushesKept.callStep (hk : FlushesKept s) (ho : s.rspOut = none) (hc : s.callWait = true)
    (h : callStep s = .moved t) : FlushesKept t := by
  obtain ⟨-, c, hp, rfl⟩ := callStep_moved h
  refine hk.log ho (issue_trace s c) ?_
  rcases portCall_eq_some hp with ⟨hst, rfl⟩ | ⟨hst, n, baud, databits, parity, stopbits, -, rfl⟩ | ⟨hst, rfl⟩ |
    ⟨hst, rfl⟩ | ⟨hst, rfl⟩ | ⟨hst, rfl⟩ | ⟨hst, rfl⟩ <;>
    simp [State.stage, exchangeAfter, hst, hc]

theorem openAnswer_stage {a : Answer} (h : openAnswer a s = .moved t) : t.stage = .noWrite := by
  rcases openAnswer_moved h with ⟨-, rfl⟩ | ⟨-, rfl⟩
  · unfold latchAttributes
    split <;> rfl
  · exact raise_stage_of_isRest rfl _ _

theorem writeAnswer_stage {a : Answer} (h : writeAnswer a s = .moved t) (hst : s.st = .sTx) : t.stage = .written := by
  rcases writeAnswer_moved h with ⟨-, -, rfl⟩ | ⟨-, rfl⟩
  · rfl
  · exact raise_stage_of_inExchange (by rw [log_st, hst]; rfl) _ _

theorem afterBytes_stage (hst : s.st = .sRx) : (afterBytes s).stage = .written := by
  have hx : s.st.inExchange = true := by rw [hst]; rfl
  rcases afterBytes_cases s with ⟨n, -, -, h⟩ | ⟨n, -, -, -, h⟩ | ⟨-, -, h⟩ | ⟨-, -, h⟩ <;> rw [h]
  · exact raise_stage_of_inExchange hx _ _
  · rfl
  · exact raise_stage_of_inExchange hx _ _
  · simp [State.stage, hst]

theorem readAnswer_stage {a : Answer} (h : readAnswer a s = .moved t) (hst : s.st = .sRx) : t.stage = .written := by
  obtain ⟨-, -, -, ⟨-, rfl⟩ | ⟨-, u, hu, rfl⟩⟩ := readAnswer_moved h
  · exact raise_stage_of_inExchange (by rw [log_st, hst]; rfl) _ _
  · obtain ⟨-, rfl⟩ := appendRx_moved hu
    exact afterBytes_stage hst

/-- Where no exchange ends, the session machine keeps the stage (42 R180). -/
theorem sessionStep_stage (hw : s.callWait = false) (hcheck : s.st ≠ .sCheck) (hflush : s.st ≠ .sErrFlush)
    (h : sessionStep s = .moved t) : t.stage = s.stage := by
  rcases sessionStep_moved h with ⟨hst, h⟩ | ⟨hst, h⟩ | ⟨hst, h⟩ | ⟨hst, h⟩ | ⟨hst, h⟩ | ⟨hst, h⟩ | ⟨hst, h⟩ |
    ⟨hst, -⟩ | ⟨hst, -⟩
  case inr.inr.inr.inl =>
    rcases settleStep_moved h with ⟨-, rfl⟩ | ⟨-, -, rfl⟩ <;> simp [State.stage, hst]
  case inr.inr.inr.inr.inr.inr.inr.inl => exact absurd hst hcheck
  case inr.inr.inr.inr.inr.inr.inr.inr => exact absurd hst hflush
  all_goals
    obtain ⟨a, rest, -, h⟩ := takeAnswer_moved h
    simp only [State.stage.eq_def s, hst, hw]
  · rcases closeAnswer_moved h with ⟨-, rfl⟩ | ⟨-, rfl⟩ <;> rfl
  · exact openAnswer_stage h
  · obtain ⟨-, -, ⟨-, rfl⟩ | ⟨-, rfl⟩⟩ := drainAnswer_moved h <;> simp [State.stage, hst]
  · cases h
    rfl
  · exact writeAnswer_stage h hst
  · exact readAnswer_stage h hst

/-! ## The end of an exchange -/

/-- A success ends the exchange after the write, with no flush (42 R203). -/
theorem flushesKept_of_success {r : Response} (hp : exchangePhase t.trace = some .written) (hst : t.st = .sIdle)
    (ho : t.rspOut = some r) (hr : r.status = Status.ok.code) : FlushesKept t :=
  ⟨.written, hp, by simp [State.exchangeAllowed, hst, ho, hr]⟩

theorem flushesKept_raise (hp : exchangePhase s.trace = some .written) (hx : s.st.inExchange = true) (e : Status)
    (c : Byte) : FlushesKept (raise e c s) :=
  flushesKept_of_stage (by rw [raise_trace, hp, raise_stage_of_inExchange hx])

theorem flushesKept_finishValues (hp : exchangePhase s.trace = some .written) (hx : s.st.inExchange = true)
    (vs : List Half) : FlushesKept (finishValues vs s) := by
  unfold finishValues
  split
  · exact flushesKept_of_success hp rfl rfl rfl
  · exact flushesKept_raise hp hx _ _

theorem flushesKept_finishEcho (hp : exchangePhase s.trace = some .written) (hx : s.st.inExchange = true)
    (count : Half) : FlushesKept (finishEcho count s) := by
  unfold finishEcho
  split
  · exact flushesKept_of_success hp rfl rfl rfl
  · exact flushesKept_raise hp hx _ _

/-- The check ends the exchange with a success, or begins the flush of its failure (42 R200, R202). -/
theorem FlushesKept.checkStep (hk : FlushesKept s) (ho : s.rspOut = none) (hst : s.st = .sCheck)
    (h : checkStep s = .moved t) : FlushesKept t := by
  have hp : exchangePhase (checkCrc s.rx s).trace = some .written := by
    rw [checkCrc_trace, hk.exchangePhase_eq ho, State.stage, hst]
  have hx : (checkCrc s.rx s).st.inExchange = true := by rw [checkCrc_st, hst]; rfl
  obtain ⟨-, ⟨vs, u, -, hu, rfl⟩ | ⟨addr, count, -, rfl⟩ | ⟨e, -, rfl⟩⟩ := checkStep_moved h
  · obtain ⟨-, rfl⟩ := loadValues_moved hu
    refine flushesKept_finishValues ?_ ?_ vs
    · exact hp
    · exact hx
  · exact flushesKept_finishEcho hp hx count
  · exact flushesKept_raise hp hx _ _

theorem Status.code_ne_ok {e : Status} (h : e ≠ .ok) : e.code ≠ Status.ok.code := by
  cases e with
  | ok => exact absurd rfl h
  | _ => decide

/-- The error that is being flushed is none of success (42 R202). -/
theorem Inv.err_ne_ok (hs : Inv s) (hst : s.st = .sErrFlush) : s.err ≠ Status.ok.code := by
  obtain ⟨i, hi⟩ := Option.isSome_iff_exists.1 (hs.cmd_isSome (.inr (by rw [hst]; rfl)))
  obtain ⟨e, -, hne, he, -⟩ := hs.failure hst i hi
  rw [he]
  exact Status.code_ne_ok hne

/-- The response of a failure follows the answer of its one flush (60 R275). -/
theorem FlushesKept.failReturn (hs : Inv s) (hk : FlushesKept s) (ho : s.rspOut = none) (hw : s.callWait = false)
    (hst : s.st = .sErrFlush) (h : takeAnswer failReturn s = .moved t) : FlushesKept t := by
  have hflushed : s.stage = .flushed := by simp [State.stage, hst, hw]
  obtain ⟨a, rest, -, h⟩ := takeAnswer_moved h
  cases h
  refine ⟨.flushed, ?_, ?_⟩
  · exact (exchangePhase_append (hk.exchangePhase_eq ho) (.reply .flushed)).trans (by rw [hflushed]; rfl)
  · simp [State.exchangeAllowed, hs.err_ne_ok hst]

theorem FlushesKept.sessionStep (hs : Inv s) (hk : FlushesKept s) (ho : s.rspOut = none) (hw : s.callWait = false)
    (h : sessionStep s = .moved t) : FlushesKept t := by
  by_cases hcheck : s.st = .sCheck
  · rw [Machine.sessionStep, hcheck] at h
    exact hk.checkStep ho hcheck h
  · by_cases hflush : s.st = .sErrFlush
    · rw [Machine.sessionStep, hflush] at h
      exact hk.failReturn hs ho hw hflush h
    · have hst := sessionStep_stage hw hcheck hflush h
      rcases sessionStep_trace h with ht | ⟨r, ht⟩ | ⟨n, ht⟩
      · exact hk.of_eq ho ht hst
      · exact hk.log ho ht (by rw [hst]; rfl)
      · exact hk.log ho ht (by rw [hst]; rfl)

/-! ## A step -/

/-- In a rest state the record offered fits the phase, so that its delivery ends the exchange (60 R275). -/
theorem FlushesKept.deliver {r : Response} (hs : Inv s) (hk : FlushesKept s) (ho : s.rspOut = some r) :
    FlushesKept (deliver r s) := by
  have hrest : s.st.isRest = true := hs.isRest_of_not_quiet (by simp [State.quiet, ho])
  obtain ⟨ph, hp, ha⟩ := hk
  have hafter : exchangeAfter (some ph) (.rsp r) = some .noWrite := by
    unfold State.exchangeAllowed at ha
    rw [ho] at ha
    cases hst : s.st <;> rw [hst] at ha hrest <;> cases hrest
    · obtain rfl : ph = .noWrite := of_decide_eq_true ha
      rfl
    · rcases of_decide_eq_true ha with rfl | ⟨rfl, hr⟩ | ⟨rfl, hr⟩
      · rfl
      · simp [exchangeAfter, hr]
      · simp [exchangeAfter, hr]
  refine flushesKept_of_stage ?_
  rw [deliver_trace, exchangePhase_append hp, hafter, stage_of_isRest (s := Machine.deliver r s) hrest]

theorem FlushesKept.transition (hs : Inv s) (hk : FlushesKept s) (h : transition s = .moved t) : FlushesKept t := by
  obtain ⟨-, ⟨r, ho, -, rfl⟩ | ⟨v, rest, ho, hv, -, rfl⟩ | ⟨ho, -, hp, h⟩ | ⟨ho, -, -, hc, h⟩ |
    ⟨ho, -, -, hc, h⟩⟩ := transition_moved h
  · exact hk.deliver hs ho
  · exact hk.log ho (deliverValue_trace s v rest) rfl
  · exact hk.payloadStep hs hp ho h
  · exact hk.callStep ho hc h
  · exact hk.sessionStep hs ho hc h

/-- A reset forgets the exchange (70 R302). -/
theorem FlushesKept.hardReset (hk : FlushesKept s) : FlushesKept (hardReset s) := by
  obtain ⟨ph, hp, -⟩ := hk
  exact flushesKept_of_stage (exchangePhase_append hp .rst)

/-- Settles O53: a reset forgets the exchange, an acceptance finds none, and a transition leads from stage to stage. -/
theorem stepKeepsTheFlushDiscipline : Obligations.StepKeepsTheFlushDiscipline := by
  intro s t hs hk h
  rcases step_next h with ⟨-, rfl⟩ | ⟨-, -, -, rfl⟩ | ⟨-, hr, r, rest, i, -, -, hf⟩ |
    ⟨-, hr, r, rest, e, -, -, rfl⟩ | ⟨-, -, -, rfl⟩ | ⟨-, -, h⟩
  · exact hk.hardReset
  · exact hk
  · obtain ⟨-, ho, -⟩ := quiet_of_cmdReady hr
    have hrest := isRest_of_cmdReady hr
    exact hk.log (e := .cmd i) ho (by simp [first_trace hf])
      (by rw [stage_of_isRest hrest, first_stage hf hrest]; rfl)
  · obtain ⟨-, ho, -⟩ := quiet_of_cmdReady hr
    have hrest := isRest_of_cmdReady hr
    have hraise := raise_stage_of_isRest (s := log (.reserved r.op) (consumeRecord s)) hrest .illegalCommand 0
    exact hk.log (e := .reserved r.op) ho (by simp) (by rw [stage_of_isRest hrest, hraise]; rfl)
  · exact hk
  · exact hk.transition hs h

end Sys2Proof.Machine
end

section
/-! PROOFS. A `CONNECT` to its end (42_bus_session.md R182 to R189): the name is forwarded whole, the answer of `T.open`
taken, the drain run by induction over its answers, the settle wait by induction over its ticks, and the bus flushed. -/

namespace Sys2Proof.Machine

variable {s : State} {i : Instr} {n : Nat}

/-! ## The name -/

/-- The rest of a name is forwarded byte by byte, and with its last byte the payload transfer is over (42 R182). -/
theorem stepsTo_forwardName {beats rest : List Word} (hr : s.rst = false) (hq : s.quiet = true) (hp : s.plWait = true)
    (hc : s.cmd = some i) (hn : i.count? = some n) (hi : Instr.isConnect i = true) (ht : s.twReady = true)
    (hlen : s.plTaken + beats.length = n) (hne : beats ≠ []) (hb : s.payload = beats ++ rest) :
    StepsTo s { s with
      payload := rest, plWait := false, plTaken := 0, trace := s.trace ++ nameEvents beats } := by
  obtain ⟨init, last, rfl⟩ := (List.eq_nil_or_concat' beats).resolve_left hne
  have hlen' : s.plTaken + init.length + 1 = n := by simpa [Nat.add_assoc] using hlen
  have hb' : s.payload = init ++ last :: rest := by simpa using hb
  have hlast := (step_forward (s := forwardBytes init (last :: rest) s) hr hq hp hc hn hi rfl).trans (if_pos ht)
  refine (stepsTo_forwardBytes hr hq hp hc hn hi ht (by omega) hb').trans (.head hlast ?_)
  simpa [forwardByte, forwardBytes, log, nameEvents, hlen'] using StepsTo.refl _

/-- `T.open` issued and its name forwarded: the command waits for the answer, with `answers` still to come. -/
def named (n : Nat) (baud : Word) (databits parity stopbits : Byte) (answers : List Answer) (s : State) : State :=
  { s with
    cmd := some (.connect n baud databits parity stopbits), op := 0x80#8, st := .sOpen, connOpen := false
    payload := s.payload.drop n, answers := answers
    trace := s.trace ++ [.cmd (.connect n baud databits parity stopbits)] ++ s.closeEvents ++
      [.call (.openPort n baud databits parity stopbits)] ++ nameEvents (s.payload.take n) }

theorem completes_named (baud : Word) (databits parity stopbits : Byte) (h : s.atRest) (ht : s.tReady = true)
    (htw : s.twReady = true) (hle : n ≤ s.payload.length) {pre rest : List Answer} (ha : s.answers = pre ++ rest)
    (hpre : pre.length = if s.connOpen then 1 else 0) :
    Completes (.connect n baud databits parity stopbits) s (named n baud databits parity stopbits rest s) := by
  have hoffers := completes_offersOpen (i := .connect n baud databits parity stopbits) h rfl ht ha hpre
  have hr := rst_of_cmdReady h.1
  have hq := quiet_of_atRest h
  obtain ⟨-, hp, htaken, -, hw⟩ := h
  have hissue := step_issue (s := offersOpen (.connect n baud databits parity stopbits) rest s) hr hq rfl hp rfl ht rfl
  refine hoffers.trans (.head hissue ?_)
  by_cases hn : n = 0
  · subst hn
    simpa [issue, offersOpen, named, log, Call.nameLength, Instr.opcode, nameEvents, hp, hw] using StepsTo.refl _
  · have hlen : s.plTaken + (s.payload.take n).length = n := by simp [htaken, hle]
    have hne : s.payload.take n ≠ [] := by
      intro hnil
      rw [hnil] at hlen
      exact hn (hlen.symm.trans htaken)
    have hname := stepsTo_forwardName (s := issue (.openPort n baud databits parity stopbits)
      (offersOpen (.connect n baud databits parity stopbits) rest s)) (i := .connect n baud databits parity stopbits)
      hr hq (decide_eq_true (Nat.pos_of_ne_zero hn)) rfl rfl rfl htw hlen hne
      (List.take_append_drop n s.payload).symm
    simpa [issue, offersOpen, named, log, Call.nameLength, Instr.opcode, hp, htaken, hw] using hname

/-! ## The drain -/

/-- Bytes that answer a drain read are discarded, and the next read is due. -/
theorem drainAnswer_bytes {a : Answer} (hne : a.bytes ≠ []) (h : a.bytes.length = a.n.toNat)
    (hle : a.bytes.length ≤ Config.drainBytes.toNat) :
    drainAnswer a s = .moved (offerCall (log (.reply (.drained a.bytes)) s)) := by
  rw [drainAnswer, checkedRead_ok _ h hle, if_neg hne]

/-- Each answer of a drain that is not empty is discarded, and the next read is issued (42 R187). -/
theorem stepsTo_discarded {ds rest : List Answer} (h : s.inState .sDrain) (ht : s.tReady = true) (hds : Drained ds)
    (ha : s.answers = ds ++ rest) :
    StepsTo s { s with answers := rest, trace := s.trace ++ drainEvents s.handle s.tDrain ds } := by
  induction ds generalizing s with
  | nil =>
    obtain rfl : s.answers = rest := ha
    simpa [drainEvents] using StepsTo.refl s
  | cons d ds ih =>
    obtain ⟨⟨hd, hcontract, hle⟩, hds⟩ := List.forall_mem_cons.1 hds
    have hanswer := step_answer h rfl ha (drainAnswer_bytes hd hcontract hle)
    have hread : s.portCall = some (.read s.handle Config.drainBytes s.tDrain) := by rw [State.portCall, h.1]
    have hissue := step_offerCall (s := log (.reply (.drained d.bytes)) { s with answers := ds ++ rest }) h rfl ht
      hread rfl
    have hmore := ih (s := log (.call (.read s.handle Config.drainBytes s.tDrain))
      (log (.reply (.drained d.bytes)) { s with answers := ds ++ rest })) h ht hds rfl
    refine .head hanswer (.head hissue ?_)
    simpa [drainEvents, log] using hmore

/-- `CONNECT` in `S_DRAIN` on the handle `h`, the answers `ds` discarded, its next read issued, with `answers` still to
come. -/
def draining (n : Nat) (baud : Word) (databits parity stopbits h : Byte) (ds answers : List Answer) (s : State) :
    State :=
  { s with
    op := 0x80#8, st := .sDrain, connOpen := true, handle := h
    cmd := some (.connect n baud databits parity stopbits)
    baud := baud, databits := databits, parity := parity, stopbits := stopbits, slave := 0
    payload := s.payload.drop n, answers := answers
    trace := s.trace ++ [.cmd (.connect n baud databits parity stopbits)] ++ s.closeEvents ++
      [.call (.openPort n baud databits parity stopbits)] ++ nameEvents (s.payload.take n) ++
      [.reply (.opened h), .call (.read h 256 s.tDrain)] ++ drainEvents h s.tDrain ds }

/-- An open that succeeds latches the line settings and begins the drain (42 R185, R187). -/
theorem openAnswer_opened {o : Answer} (ho : o.ok = true) :
    openAnswer o s = .moved (offerCall (latchAttributes s.cmd (log (.reply (.opened o.handle))
      { s with handle := o.handle, connOpen := true, slave := 0, st := .sDrain }))) := by
  simp [openAnswer, openReply, ho]

/-- A `CONNECT` whose open succeeds comes to discard every drain answer that is not empty (42 R182 to R187). -/
theorem completes_draining (baud : Word) (databits parity stopbits : Byte) (h : s.atRest) (ht : s.tReady = true)
    (htw : s.twReady = true) (hle : n ≤ s.payload.length) {pre ds rest : List Answer} {o : Answer}
    (ha : s.answers = pre ++ o :: (ds ++ rest)) (hpre : pre.length = if s.connOpen then 1 else 0)
    (ho : o.ok = true) (hds : Drained ds) :
    Completes (.connect n baud databits parity stopbits) s
      (draining n baud databits parity stopbits o.handle ds rest s) := by
  have hnamed := completes_named baud databits parity stopbits h ht htw hle ha hpre
  obtain ⟨-, hlive⟩ := inState_of_atRest h
  have hopened := step_answer (s := named n baud databits parity stopbits (o :: (ds ++ rest)) s)
    ⟨rfl, hlive⟩ rfl rfl (openAnswer_opened ho)
  have hissue := step_offerCall (s := log (.reply (.opened o.handle)) {
      named n baud databits parity stopbits (ds ++ rest) s with
    handle := o.handle, connOpen := true, slave := 0, st := .sDrain
    baud := baud, databits := databits, parity := parity, stopbits := stopbits }) ⟨rfl, hlive⟩ rfl ht rfl rfl
  have hdrained := stepsTo_discarded (s := draining n baud databits parity stopbits o.handle [] (ds ++ rest) s)
    ⟨rfl, hlive⟩ ht hds rfl
  refine hnamed.trans (.head hopened (.head hissue ?_))
  simpa [named, draining, log, drainEvents, Config.drainBytes] using hdrained

/-- Settles O28: with its drain answers discarded the command waits for the answer of its next read. -/
theorem connectDrainsWhileBusIsNotSilent : Obligations.ConnectDrainsWhileBusIsNotSilent := by
  intro s n baud databits parity stopbits pre ds o h ht htw hle ha hpre ho hds
  have hdrained := completes_draining (rest := []) baud databits parity stopbits h.1 ht htw hle (by simpa using ha)
    hpre ho hds
  refine ⟨hdrained, ?_⟩
  obtain ⟨-, hp, hw, hq, hr⟩ := inState_of_atRest h.1
  have hwaits := unansweredCallWaits (draining n baud databits parity stopbits o.handle ds [] s) hr hq rfl hp
  exact hwaits.2 hw rfl

/-! ## The settle wait -/

theorem toNat_ticksLeft (a : Word) (dt : Nat) : (ticksLeft a dt).toNat = a.toNat - dt := by
  rw [ticksLeft, BitVec.toNat_ofNat, Nat.mod_eq_of_lt (by omega)]

/-- A step of the settle wait is its count (42 R188). -/
theorem step_settle (h : s.inState .sSettle) : step s = (settleStep s).outcome s := by
  rw [step_event h rfl, sessionStep, h.1]

/-- A tick takes one off `REM` (10 R37). -/
theorem step_tick (h : s.inState .sSettle) (hrem : s.rem ≠ 0) (hticks : s.ticks ≠ 0) :
    step s = .next { s with rem := ticksLeft s.rem 1, ticks := s.ticks - 1 } := by
  rw [step_settle h, settleStep, if_neg hrem, if_neg hticks, Progress.outcome]

/-- At 0 the flush is due (42 R189). -/
theorem step_settled (h : s.inState .sSettle) (hrem : s.rem = 0) :
    step s = .next (offerCall (log (.wait s.tSettle) { s with st := .sSyncFlush })) := by
  rw [step_settle h, settleStep, if_pos hrem, Progress.outcome]

/-- With no tick there the engine waits. -/
theorem step_no_tick (h : s.inState .sSettle) (hrem : s.rem ≠ 0) (hticks : s.ticks = 0) : step s = .next s := by
  rw [step_settle h, settleStep, if_neg hrem, if_pos hticks, Progress.outcome]

theorem run_settle (h : s.inState .sSettle) {k : Nat} (hticks : k ≤ s.ticks) (hrem : k ≤ s.rem.toNat) :
    Host.Core.run Sys2Proof.core k s =
      .next { s with rem := BitVec.ofNat 32 (s.rem.toNat - k), ticks := s.ticks - k } := by
  induction k generalizing s with
  | zero => simp [run_zero]
  | succ k ih =>
    have hleft := toNat_ticksLeft s.rem 1
    have hne : s.rem ≠ 0 := by
      intro hzero
      simp [hzero] at hrem
    rw [run_step (step_tick h hne (by omega)), ih (s := { s with rem := ticksLeft s.rem 1, ticks := s.ticks - 1 }) h
      (by simp; omega) (by simp; omega)]
    simp [hleft, Nat.sub_sub, Nat.add_comm 1]

/-- Settles O29: any number of ticks by induction, the end of the wait and the wait for a tick by a step. -/
theorem settleWaitCountsTicksDown : Obligations.SettleWaitCountsTicksDown :=
  fun _ h => ⟨fun _ => run_settle h, step_settled h, step_no_tick h⟩

/-! ## The end -/

/-- An empty answer ends the drain and begins the settle wait (42 R187, R188). -/
theorem drainAnswer_empty {a : Answer} (hb : a.bytes = []) (hn : a.n = 0) :
    drainAnswer a s = .moved (log (.reply (.drained [])) { s with st := .sSettle, rem := s.tSettle }) := by
  rw [drainAnswer, checkedRead_ok _ (by rw [hb, hn]; rfl) (by rw [hb]; exact Nat.zero_le _), if_pos hb, hb]

/-- The bus is flushed once, and `CONNECT` answers `OK` 1 (42 R189). -/
theorem stepsTo_connected {f : Answer} {rest : List Answer} (h : s.inState .sSyncFlush) (hhost : s.rspReady = true)
    (ht : s.tReady = true) (ha : s.answers = f :: rest) :
    StepsTo (offerCall s) { s with
      st := .sIdle, cmd := none, answers := rest
      trace := s.trace ++ [.call (.flush s.handle), .reply .flushed, .rsp (Response.success 1)] } := by
  have hflush : s.portCall = some (.flush s.handle) := by rw [State.portCall, h.1]
  have hrun := stepsTo_answer_concluded (r := Response.success 1) h rfl hhost ht hflush rfl ha rfl rfl rfl
  obtain ⟨-, -, -, hq, -⟩ := h
  obtain ⟨ho, hv⟩ : s.rspOut = none ∧ s.rvOut = [] := by simpa [State.quiet] using hq
  simpa [concluded, log, ho, hv] using hrun

/-- From an empty drain answer on a `CONNECT` waits out the settle interval, flushes and answers (42 R187 to R189). -/
theorem stepsTo_synchronised {e f : Answer} {rest : List Answer} (h : s.inState .sDrain)
    (hhost : s.rspReady = true) (ht : s.tReady = true) (ha : s.answers = e :: f :: rest) (he : e.bytes = [])
    (hn : e.n = 0) (hticks : s.tSettle.toNat ≤ s.ticks) :
    StepsTo s { s with
      st := .sIdle, rem := 0, ticks := s.ticks - s.tSettle.toNat, cmd := none, answers := rest
      trace := s.trace ++ [.reply (.drained []), .wait s.tSettle, .call (.flush s.handle), .reply .flushed,
        .rsp (Response.success 1)] } := by
  have hempty := step_answer h rfl ha (drainAnswer_empty he hn)
  obtain ⟨-, hlive⟩ := h
  have hwait := run_settle (s := log (.reply (.drained [])) { s with
    st := .sSettle, rem := s.tSettle, answers := f :: rest }) ⟨rfl, hlive⟩ hticks le_rfl
  have hsettled := step_settled (s := log (.reply (.drained [])) { s with
    st := .sSettle, rem := 0, ticks := s.ticks - s.tSettle.toNat, answers := f :: rest }) ⟨rfl, hlive⟩ rfl
  have hdone := stepsTo_connected (s := log (.wait s.tSettle) (log (.reply (.drained [])) { s with
    st := .sSyncFlush, rem := 0, ticks := s.ticks - s.tSettle.toNat, answers := f :: rest }))
    ⟨rfl, hlive⟩ hhost ht rfl
  rw [log_rem, Nat.sub_self] at hwait
  refine .head hempty (.trans ⟨_, hwait⟩ (.head hsettled ?_))
  simpa [log] using hdone

/-- Settles O26: the drain to its last answer that is not empty, and then to the response. -/
theorem connectResynchronisesAndConnects : Obligations.ConnectResynchronisesAndConnects := by
  intro s n baud databits parity stopbits pre ds rest o e f h ht htw hle ha hpre ho hds he hn hticks
  have hdrained := completes_draining (rest := e :: f :: rest) baud databits parity stopbits h.1 ht htw hle
    (by simpa using ha) hpre ho hds
  refine hdrained.trans ?_
  obtain ⟨hrest, hhost⟩ := h
  obtain ⟨hcmd, -, -⟩ := quiet_of_cmdReady hrest.1
  obtain ⟨-, hlive⟩ := inState_of_atRest hrest
  have hdone := stepsTo_synchronised (s := draining n baud databits parity stopbits o.handle ds (e :: f :: rest) s)
    ⟨rfl, hlive⟩ hhost ht rfl he hn hticks
  simpa [draining, hcmd] using hdone

end Sys2Proof.Machine
end

section
/-! PROOFS. The read phase of an exchange (42_bus_session.md R194 to R200): what each answer does, a response received in
any pieces by induction over them, and the failures of a read and of the check, each with its flush (R202). -/

namespace Sys2Proof.Machine

variable {s : State} {rest : List Answer}

/-! ## One answer -/

/-- An empty answer ends the exchange (42 R199). -/
theorem readAnswer_empty {a : Answer} (hst : s.st = .sRx) (hl : s.rxLen.toNat ≤ 256) (hb : a.bytes = [])
    (hn : a.n = 0) :
    readAnswer a s = .moved (failFlush .transportTimeout 0 (log (.reply (.data [] a.dt)) s)) := by
  rw [readAnswer, if_neg (by simpa [Config.maxFrame] using hl), checkedRead_ok _ (by rw [hb, hn]; rfl)
    (by rw [hb]; exact Nat.zero_le _), if_pos hb, raise_inExchange _ _ (by rw [log_st, hst]; rfl), hb]

/-- What the bytes and the ticks of answer `a` leave, its line in the history included (42 R196). -/
def receives (a : Answer) (s : State) : State :=
  { s with
    rxbuf := s.rxbuf.writeFrom s.rxLen.toNat a.bytes, rxLen := BitVec.ofNat 9 (s.rxLen.toNat + a.bytes.length)
    rem := ticksLeft s.rem a.dt, trace := s.trace ++ [.reply (.data a.bytes a.dt)] }

/-- Bytes are stored and their ticks counted, before anything is tested (42 R196). -/
theorem readAnswer_bytes {a : Answer} (hne : a.bytes ≠ []) (hlen : a.bytes.length = a.n.toNat)
    (hle : a.bytes.length ≤ wanted s) (hfit : s.rxLen.toNat + a.bytes.length ≤ 256) :
    readAnswer a s = .moved (afterBytes (receives a s)) := by
  have happend : appendRx a.bytes (log (.reply (.data a.bytes a.dt)) s) =
      .moved { receives a s with rem := s.rem } := if_pos hfit
  rw [readAnswer, if_neg (by simp [Config.maxFrame]; omega), checkedRead_ok _ hlen hle, if_neg hne, happend]
  rfl

theorem receives_rx {a : Answer} (hm : s.rxbuf.wf) (hfit : s.rxLen.toNat + a.bytes.length ≤ 256) :
    (receives a s).rx = s.rx ++ a.bytes :=
  appendRx_rx (s := { s with rem := ticksLeft s.rem a.dt, trace := s.trace ++ [.reply (.data a.bytes a.dt)] }) hm
    (if_pos hfit)

theorem receives_rxLen {a : Answer} (hfit : s.rxLen.toNat + a.bytes.length ≤ 256) :
    (receives a s).rxLen.toNat = s.rxLen.toNat + a.bytes.length := by
  simp only [receives, BitVec.toNat_ofNat]
  omega

theorem rx_length (s : State) : s.rx.length = s.rxLen.toNat := Memory.length_readFrom _ _ _

/-! ## What follows a non-empty answer -/

/-- A length announced that no frame has ends the exchange (42 R198). -/
theorem afterBytes_oversize {n : Nat} (hst : s.st = .sRx) (hf : flen s.rx = some n) (hn : 256 < n) :
    afterBytes s = failFlush .malformedFrame 0 s := by
  rw [afterBytes, hf]
  exact (if_pos hn).trans (raise_inExchange _ _ (by rw [hst]; rfl))

/-- A whole frame is checked, whatever time is left (42 R197). -/
theorem afterBytes_complete {n : Nat} (hf : flen s.rx = some n) (hn : n ≤ 256) (hl : s.rxLen.toNat = n) :
    afterBytes s = { s with st := .sCheck } := by
  rw [afterBytes, hf]
  exact (if_neg (Nat.not_lt.2 hn)).trans (if_pos hl)

/-- An incomplete frame is read on, or is out of time (42 R196, R199). -/
theorem afterBytes_incomplete (h : ∀ n, flen s.rx = some n → n ≤ 256 ∧ n ≠ s.rxLen.toNat) :
    afterBytes s = if s.rem = 0 then raise .transportTimeout 0 s else offerCall s := by
  rw [afterBytes]
  cases hf : flen s.rx with
  | none => rfl
  | some n =>
    obtain ⟨hle, hne⟩ := h n hf
    exact (if_neg (Nat.not_lt.2 hle)).trans (if_neg hne.symm)

/-! ## The failures of a read -/

/-- Settles O38: the empty answer begins the flush of a timeout. -/
theorem emptyReadTimesOut : Obligations.EmptyReadTimesOut := by
  intro s a f rest h hhost ht hl ha hb hn
  have hempty := step_answer h rfl ha (readAnswer_empty h.1 hl hb hn)
  exact .head hempty (stepsTo_flushedFailure (s := log (.reply (.data [] a.dt)) { s with answers := f :: rest }) h hhost
    ht rfl .transportTimeout 0)

/-- Settles O39: the answer is received, and what it announces or leaves begins the flush. -/
theorem readPhaseFailsAfterCounting : Obligations.ReadPhaseFailsAfterCounting := by
  intro s a f rest h hhost ht hm ha hne hlen hle hfit t
  have hread := step_answer h rfl ha (readAnswer_bytes hne hlen hle hfit)
  have hrx : (receives a { s with answers := f :: rest }).rx = s.rx ++ a.bytes := receives_rx hm hfit
  have hrxLen : (receives a { s with answers := f :: rest }).rxLen.toNat = (s.rx ++ a.bytes).length := by
    rw [List.length_append, rx_length]
    exact receives_rxLen hfit
  have hfails (e : Status) (hfail : afterBytes (receives a { s with answers := f :: rest }) =
      failFlush e 0 (receives a { s with answers := f :: rest })) : StepsTo s (State.flushedFailure t e 0 rest) := by
    rw [hfail] at hread
    exact .head hread (stepsTo_flushedFailure (s := receives a { s with answers := f :: rest }) h hhost ht rfl e 0)
  refine ⟨fun m hf hbig => hfails _ (afterBytes_oversize h.1 (hrx ▸ hf) hbig), fun hf hlate => hfails _ ?_⟩
  have hrem : (receives a { s with answers := f :: rest }).rem = 0 := by
    apply BitVec.eq_of_toNat_eq
    rw [receives, toNat_ticksLeft]
    exact Nat.sub_eq_zero_of_le hlate
  rw [afterBytes_incomplete (by rw [hrx, hrxLen]; exact hf), if_pos hrem]
  exact raise_inExchange _ _ (by simp [receives, h.1, SessionState.inExchange])

/-! ## A response in pieces -/

/-- The first of the pieces of a frame keeps its read's contract and is the last, or leaves bytes and time for more. -/
theorem pieces_cons {frame got : List Byte} {rem : Word} {a : Answer} {more : List Answer}
    (h : Pieces frame got rem (a :: more)) :
    a.bytes ≠ [] ∧ a.bytes.length = a.n.toNat ∧ a.bytes.length ≤ target got - got.length ∧
    ∃ tail, frame = got ++ a.bytes ++ tail ∧
      ((tail = [] ∧ more = []) ∨
        (tail ≠ [] ∧ ticksLeft rem a.dt ≠ 0 ∧ Pieces frame (got ++ a.bytes) (ticksLeft rem a.dt) more)) := by
  obtain ⟨hne, hlen, hle, h⟩ := h
  refine ⟨hne, hlen, hle, ?_⟩
  by_cases hmore : more = []
  · rw [if_pos hmore] at h
    exact ⟨[], by simp [h], .inl ⟨rfl, hmore⟩⟩
  · rw [if_neg hmore] at h
    obtain ⟨⟨tail, htail, hframe⟩, hrem, h⟩ := h
    exact ⟨tail, hframe.symm, .inr ⟨htail, hrem, h⟩⟩

/-- The next read issued and its answer `a` received, with `answers` still to come. -/
def readsPiece (a : Answer) (answers : List Answer) (s : State) : State :=
  receives a (log (.call (.read s.handle (BitVec.ofNat 9 (wanted s)) s.rem)) { s with answers := answers })

theorem stepsTo_readsPiece {a : Answer} (h : s.inState .sRx) (ht : s.tReady = true) (ha : s.answers = a :: rest)
    (hne : a.bytes ≠ []) (hlen : a.bytes.length = a.n.toNat) (hle : a.bytes.length ≤ wanted s)
    (hfit : s.rxLen.toNat + a.bytes.length ≤ 256) : StepsTo (offerCall s) (afterBytes (readsPiece a rest s)) :=
  stepsTo_answer h rfl ht (by rw [State.portCall, h.1]) rfl ha (readAnswer_bytes hne hlen hle hfit)

theorem readsPiece_rx {a : Answer} (hm : s.rxbuf.wf) (hfit : s.rxLen.toNat + a.bytes.length ≤ 256)
    (answers : List Answer) : (readsPiece a answers s).rx = s.rx ++ a.bytes := receives_rx hm hfit

theorem readsPiece_rxLen {a : Answer} (hfit : s.rxLen.toNat + a.bytes.length ≤ 256) (answers : List Answer) :
    (readsPiece a answers s).rxLen.toNat = s.rxLen.toNat + a.bytes.length := receives_rxLen hfit

/-- The rest of `frame` received in `pieces` and to be checked, with `answers` still to come. -/
def received (frame : List Byte) (pieces answers : List Answer) (s : State) : State :=
  { s with
    st := .sCheck, answers := answers
    rxbuf := s.rxbuf.writeFrom s.rxLen.toNat (frame.drop s.rxLen.toNat), rxLen := BitVec.ofNat 9 frame.length
    rem := piecesRem s.rem pieces, trace := s.trace ++ piecesEvents s.handle s.rx s.rem pieces }

/-- With the last piece the frame is whole. -/
theorem received_last {frame : List Byte} {a : Answer} (hframe : frame = s.rx ++ a.bytes) :
    received frame [a] rest s = { readsPiece a rest s with st := .sCheck } := by
  simp [received, readsPiece, receives, log, piecesRem, piecesEvents, wanted, hframe, ← rx_length]

/-- Receiving the first piece and then the others is receiving them all. -/
theorem received_cons {frame tail : List Byte} {a : Answer} {more : List Answer} (hm : s.rxbuf.wf)
    (hfit : s.rxLen.toNat + a.bytes.length ≤ 256) (hframe : frame = s.rx ++ a.bytes ++ tail) :
    received frame (a :: more) rest s = received frame more rest (readsPiece a (more ++ rest) s) := by
  have hdrop : frame.drop s.rxLen.toNat = a.bytes ++ tail := by
    rw [hframe, List.append_assoc, ← rx_length, List.drop_left]
  have hdrop' : frame.drop (s.rxLen.toNat + a.bytes.length) = tail := by
    rw [← List.drop_drop, hdrop, List.drop_left]
  rw [received, received, readsPiece_rx hm hfit, readsPiece_rxLen hfit, hdrop, hdrop', Memory.writeFrom_append]
  simp [readsPiece, receives, log, piecesRem, piecesEvents, wanted, rx_length]

/-- A response that comes in pieces, whole in the end, comes to be checked (42 R196, R197). -/
theorem stepsTo_received {frame : List Byte} (hf : flen frame = some frame.length) (hmax : frame.length ≤ 256)
    {pieces : List Answer} (h : s.inState .sRx) (ht : s.tReady = true) (hm : s.rxbuf.wf)
    (ha : s.answers = pieces ++ rest) (hp : Pieces frame s.rx s.rem pieces) :
    StepsTo (offerCall s) (received frame pieces rest s) := by
  induction pieces generalizing s with
  | nil => exact hp.elim
  | cons a more ih =>
    obtain ⟨hne, hlen, hle, tail, hframe, hmore⟩ := pieces_cons hp
    have htotal : frame.length = s.rxLen.toNat + a.bytes.length + tail.length := by
      rw [hframe, List.length_append, List.length_append, rx_length]
    have hfit : s.rxLen.toNat + a.bytes.length ≤ 256 := by omega
    rw [rx_length] at hle
    have hread := stepsTo_readsPiece (rest := more ++ rest) h ht ha hne hlen hle hfit
    have hrx := readsPiece_rx hm hfit (more ++ rest)
    have hrxLen := readsPiece_rxLen hfit (more ++ rest)
    rcases hmore with ⟨rfl, rfl⟩ | ⟨htail, hrem, hp⟩
    · rw [List.append_nil] at hframe
      rw [afterBytes_complete (by rw [hrx, ← hframe, hf]) hmax (by rw [hrxLen, htotal]; rfl)] at hread
      rw [received_last hframe]
      exact hread
    · have hmid : ∀ n, flen (readsPiece a (more ++ rest) s).rx = some n →
          n ≤ 256 ∧ n ≠ (readsPiece a (more ++ rest) s).rxLen.toNat := by
        intro n hn
        have hflen := flen_append hn tail
        rw [hrx, ← hframe, hf] at hflen
        have htail' := List.length_pos_of_ne_nil htail
        cases hflen
        omega
      have hleft : (readsPiece a (more ++ rest) s).rem ≠ 0 := hrem
      rw [afterBytes_incomplete hmid, if_neg hleft] at hread
      rw [received_cons hm hfit hframe]
      exact hread.trans (ih (s := readsPiece a (more ++ rest) s) h ht (Memory.writeFrom_wf _ _ _ hm) rfl (hrx ▸ hp))

/-! ## A whole exchange -/

/-- A request written whole begins the read phase (42 R194, R195). -/
theorem writeAnswer_whole {w : Answer} (hok : w.ok = true) (hn : w.n = s.txLen) :
    writeAnswer w s = .moved (offerCall (log (.reply (.written w.n))
      { s with rxLen := 0, rem := s.tResp, st := .sRx })) := by
  simp [writeAnswer, writeReply, hok, hn]

/-- From the write outstanding to the whole response in `RXBUF`, which is to be checked. -/
def responded (frame : List Byte) (w : Answer) (pieces answers : List Answer) (s : State) : State :=
  { s with
    st := .sCheck, answers := answers, rxbuf := s.rxbuf.writeFrom 0 frame, rxLen := BitVec.ofNat 9 frame.length
    rem := piecesRem s.tResp pieces
    trace := s.trace ++ [.reply (.written w.n)] ++ piecesEvents s.handle [] s.tResp pieces }

theorem stepsTo_responded {frame : List Byte} (hf : flen frame = some frame.length) (hmax : frame.length ≤ 256)
    {w : Answer} {pieces : List Answer} (h : s.inState .sTx) (ht : s.tReady = true) (hm : s.rxbuf.wf)
    (ha : s.answers = w :: (pieces ++ rest)) (hok : w.ok = true) (hn : w.n = s.txLen)
    (hp : Pieces frame [] s.tResp pieces) : StepsTo s (responded frame w pieces rest s) := by
  have hwritten := step_answer h rfl ha (writeAnswer_whole (s := { s with answers := pieces ++ rest }) hok hn)
  obtain ⟨-, hlive⟩ := h
  have hreceived := stepsTo_received (s := log (.reply (.written w.n))
    { s with answers := pieces ++ rest, rxLen := 0, rem := s.tResp, st := .sRx }) hf hmax ⟨rfl, hlive⟩ ht hm rfl hp
  exact .head hwritten hreceived

theorem responded_rx {frame : List Byte} (hmax : frame.length ≤ 256) (hm : s.rxbuf.wf) (w : Answer)
    (pieces answers : List Answer) : (responded frame w pieces answers s).rx = frame := by
  have hlt : frame.length < 2 ^ 9 := by omega
  simp only [State.rx, responded, BitVec.toNat_ofNat, Nat.mod_eq_of_lt hlt]
  exact Memory.readFrom_writeFrom _ _ _ hm

/-- A frame that `decode` refuses begins the flush of its error (43 R230). -/
theorem checkStep_refused {frame : List Byte} {e : FrameError} (hst : s.st = .sCheck) (hrx : s.rx = frame)
    (hmin : 5 ≤ frame.length) (hmax : frame.length ≤ 256) (hd : decodeFrame frame s.slave s.expFc = .err e) :
    checkStep s = .moved (failFlush e.status e.code { s with crc := crc16 (crcBody frame) }) := by
  have hlen : ¬ Config.maxFrame < s.rxLen.toNat := by
    rw [← rx_length, hrx]
    exact Nat.not_lt.2 hmax
  have hcrc : checkCrc frame s = { s with crc := crc16 (crcBody frame) } := if_neg (Nat.not_lt.2 hmin)
  rw [checkStep, if_neg hlen, hrx, hd, hcrc]
  exact congrArg Progress.moved (raise_inExchange _ _ (by rw [hst]; rfl))

/-- Settles O40: the frame is received in its pieces, refused by the check, and flushed. -/
theorem refusedFrameIsFlushedAndReported : Obligations.RefusedFrameIsFlushedAndReported := by
  intro s frame e w f pieces rest h hhost ht hm ha hok hn hp hf hmax hd
  obtain ⟨hmin, -⟩ := flen_bounds hf
  have hresponded := stepsTo_responded hf hmax h ht hm (by simpa using ha) hok hn hp
  obtain ⟨-, hlive⟩ := h
  have hrefused := checkStep_refused (s := responded frame w pieces (f :: rest) s) rfl
    (responded_rx hmax hm w pieces _) hmin hmax hd
  have hcheck := step_event (s := responded frame w pieces (f :: rest) s) ⟨rfl, hlive⟩ rfl
  have hflushed := stepsTo_flushedFailure (s := { responded frame w pieces (f :: rest) s with
    crc := crc16 (crcBody frame) }) (x := .sCheck) ⟨rfl, hlive⟩ hhost ht rfl e.status e.code
  refine hresponded.trans (.head (hcheck.trans ?_) hflushed)
  exact congrArg (Progress.outcome _) hrefused

end Sys2Proof.Machine
end

section
/-! PROOFS. A register command without a Connection (42_bus_session.md R193; 43_function_dispatcher.md R231 to R234): its
request is latched and encoded, and the connection test answers. -/

namespace Sys2Proof.Machine

variable {s : State} {slave : Byte} {start : Half} {n : Nat}

/-! ## The request -/

/-- A valid read is latched and encoded, and its exchange begins (43 R231, R232). -/
theorem readRequest_valid (k : ReadKind) (hn : n ≤ 125) :
    readRequest k slave start n s =
      beginExchange slave (s.withRequest k.fc n (encodeRead slave k start (BitVec.ofNat 16 n))) :=
  if_neg (Nat.not_lt.2 hn)

/-- A write of values in range is latched and encoded, and its exchange begins (43 R233). -/
theorem writeRequest_valid (hn : n ≤ 123) :
    writeRequest slave start n true s =
      beginExchange slave { s.withRequest 0x10#8 n (encodeWrite slave start (s.vbuf.readFrom 0 n)) with
        vLen := BitVec.ofNat 8 n } := by
  have hfit : (encodeWrite slave start (s.vbuf.readFrom 0 n)).length ≤ Config.maxFrame := by
    rw [encodeWrite_length, Memory.length_readFrom, Config.maxFrame]
    omega
  have hcount : ¬ Config.maxWriteCount < n := Nat.not_lt.2 hn
  rw [writeRequest, if_neg hcount, if_pos rfl, loadRequest, if_pos hfit]
  rfl

/-- Without a Connection an exchange ends before it begins (42 R193). -/
theorem beginExchange_notConnected (hconn : s.connOpen = false) (hst : s.st.isRest = true) :
    beginExchange slave s = .moved (respond Status.notConnected.code 0 0 [] s) := by
  rw [beginExchange, hconn, raise_outside _ _ (inExchange_of_isRest hst)]
  rfl

/-! ## The values of a write -/

/-- The range test of a beat, in integers (43 R233). -/
theorem all_beatInRange {beats : List Word} (h : ∀ v ∈ beats, 0 ≤ v.toInt ∧ v.toInt ≤ 65535) :
    ∀ v ∈ beats, beatInRange v = true := fun v hv => decide_eq_true (h v hv)

/-- `WRITE_HOLDING` with its `n` values taken, all in range, and its request still to make. -/
def valuesTaken (slave : Byte) (start : Half) (n : Nat) (s : State) : State :=
  { s with
    cmd := some (.writeHolding slave start n), op := 0x10#8, plWait := true, plTaken := n
    payload := s.payload.drop n, vbuf := s.vbuf.writeFrom 0 ((s.payload.take n).map beatValue)
    trace := s.trace ++ [.cmd (.writeHolding slave start n)] ++ (s.payload.take n).map .payload }

theorem completes_valuesTaken (h : s.atRest) (hn : n ≤ 123) (hle : n ≤ s.payload.length)
    (hrange : ∀ v ∈ s.payload.take n, 0 ≤ v.toInt ∧ v.toInt ≤ 65535) :
    Completes (.writeHolding slave start n) s (valuesTaken slave start n s) := by
  have hgood := all_beatInRange hrange
  have hall : (s.payload.take n).all beatInRange = true := List.all_eq_true.2 hgood
  have hstored : (s.payload.take n).takeWhile beatInRange = s.payload.take n := List.takeWhile_eq_self_iff.2 hgood
  have hlen : (awaiting (.writeHolding slave start n) s).plTaken + (s.payload.take n).length = n := by
    simp [awaiting, hle]
  have hr := rst_of_cmdReady h.1
  have hq := quiet_of_atRest h
  have hrun := stepsTo_takeBeats (s := awaiting (.writeHolding slave start n) s) (i := .writeHolding slave start n)
    hr hq rfl rfl rfl rfl hlen.le (List.take_append_drop n s.payload).symm
  rw [takeBeats, keepBeats_writeHolding hn, hall, hstored] at hrun
  refine ⟨_, exec_payloadAtRest h rfl, ?_⟩
  obtain ⟨-, -, -, hg, -⟩ := h
  simpa [valuesTaken, awaiting, initialCrc, Instr.opcode, hle, hg] using hrun

/-- `WRITE_HOLDING` with its values in `VBUF` and its request in `TXBUF`. -/
def requestMade (slave : Byte) (start : Half) (n : Nat) (s : State) : State :=
  let vs := (s.payload.take n).map beatValue
  { (s.withValues vs).withRequest 0x10#8 n (encodeWrite slave start vs) with
    cmd := some (.writeHolding slave start n), op := 0x10#8, payload := s.payload.drop n
    trace := s.trace ++ [.cmd (.writeHolding slave start n)] ++ (s.payload.take n).map .payload }

/-- With its values taken a `WRITE_HOLDING` makes its request of them, and its exchange begins (43 R233). -/
theorem payloadStep_valuesTaken (h : s.atRest) (hn : n ≤ 123) (hle : n ≤ s.payload.length) (hm : s.vbuf.wf) :
    payloadStep (valuesTaken slave start n s) = beginExchange slave (requestMade slave start n s) := by
  obtain ⟨-, hp, htaken, hg, -⟩ := h
  have hlen : ((s.payload.take n).map beatValue).length = n := by simp [hle]
  have hback := Memory.readFrom_writeFrom s.vbuf 0 ((s.payload.take n).map beatValue) hm
  rw [hlen] at hback
  have hdone : payloadStep (valuesTaken slave start n s) =
      writeRequest slave start n s.plGood (payloadOver (valuesTaken slave start n s)) := takePayload_done le_rfl
  have hvbuf : (payloadOver (valuesTaken slave start n s)).vbuf.readFrom 0 n =
      (s.payload.take n).map beatValue := hback
  rw [hdone, hg, writeRequest_valid hn, hvbuf]
  simp [requestMade, payloadOver, valuesTaken, State.withValues, State.withRequest, Nat.min_eq_left hle, hp,
    htaken, hg]

/-! ## No Connection -/

/-- The first act of a read command is its request. -/
theorem first_command (k : ReadKind) : Instr.first (k.command slave start n) = readRequest k slave start n := by
  cases k <;> rfl

theorem opcode_command (k : ReadKind) : (k.command slave start n).opcode = k.fc := by
  cases k <;> rfl

/-- A read without a Connection is answered by the step that accepts it. -/
theorem completes_read_notConnected (k : ReadKind) (h : s.accepts) (hconn : s.connOpen = false) (hn : n ≤ 125) :
    Completes (k.command slave start n) s { s.withRequest k.fc n (encodeRead slave k start (BitVec.ofNat 16 n)) with
      op := k.fc
      trace := s.trace ++ [.cmd (k.command slave start n), .rsp (Response.failure .notConnected 0)] } := by
  have hst : s.st.isRest = true := isRest_of_cmdReady h.1.1
  have hf : Instr.first (k.command slave start n) (accept (k.command slave start n) s) =
      .moved (respond Status.notConnected.code 0 0 [] ((accept (k.command slave start n) s).withRequest k.fc n
        (encodeRead slave k start (BitVec.ofNat 16 n)))) := by
    rw [first_command, readRequest_valid k hn]
    exact beginExchange_notConnected hconn hst
  have hrun := completes_concluded (r := Response.failure .notConnected 0) h hf rfl rfl
  obtain ⟨hcmd, ho, hv⟩ := quiet_of_cmdReady h.1.1
  rw [accept_atRest h.1] at hrun
  simpa [concluded, State.withRequest, opcode_command, hcmd, ho, hv] using hrun

/-- A write without a Connection is answered once its values are taken. -/
theorem completes_write_notConnected (h : s.accepts) (hconn : s.connOpen = false) (hn : n ≤ 123)
    (hle : n ≤ s.payload.length) (hm : s.vbuf.wf) (hrange : ∀ v ∈ s.payload.take n, 0 ≤ v.toInt ∧ v.toInt ≤ 65535) :
    Completes (.writeHolding slave start n) s
      (concluded (Response.failure .notConnected 0) (requestMade slave start n s)) := by
  refine (completes_valuesTaken h.1 hn hle hrange).trans ?_
  have hr : s.rst = false := rst_of_cmdReady h.1.1
  have hq : s.quiet = true := quiet_of_atRest h.1
  have hst : s.st.isRest = true := isRest_of_cmdReady h.1.1
  have hanswer := (step_payload (s := valuesTaken slave start n s) hr hq rfl rfl).trans
    (congrArg (Progress.outcome _) ((payloadStep_valuesTaken h.1 hn hle hm).trans
      (beginExchange_notConnected (s := requestMade slave start n s) hconn hst)))
  exact .head hanswer (stepsTo_concluded (s := requestMade slave start n s) hr h.2 (Response.failure .notConnected 0))

/-- Settles O33: the reads at their acceptance, the write after its payload. -/
theorem notConnectedMakesNoCall : Obligations.NotConnectedMakesNoCall := by
  intro s slave start n h hconn
  refine ⟨fun k hn => completes_read_notConnected k h hconn hn, fun hn hle hm hrange => ?_⟩
  obtain ⟨hcmd, ho, hv⟩ := quiet_of_cmdReady h.1.1
  have hrun := completes_write_notConnected (slave := slave) (start := start) h hconn hn hle hm hrange
  simpa [concluded, requestMade, State.withValues, State.withRequest, hcmd, ho, hv] using hrun

end Sys2Proof.Machine
end

section
/-! PROOFS. The command port while a command is in execution (42_bus_session.md R181, 70_reset_and_hazards.md R305): no
transition takes a record from the port, and none logs an acceptance. -/

namespace Sys2Proof.Machine

variable {s t : State}

/-! ## The records presented -/

theorem ignoresEnd_cmdIn : IgnoresEnd State.cmdIn := fun _ _ _ _ _ _ _ => rfl

theorem latchAttributes_cmdIn (i : Option Instr) (s : State) : (latchAttributes i s).cmdIn = s.cmdIn := by
  unfold latchAttributes
  split <;> rfl

theorem checkCrc_cmdIn (b : List Byte) (s : State) : (checkCrc b s).cmdIn = s.cmdIn := by
  unfold checkCrc
  split <;> rfl

/-- No answer touches the command port. -/
theorem onAnswer_cmdIn {x : SessionState} {a : Answer} (h : x.onAnswer a s = .moved t) : t.cmdIn = s.cmdIn := by
  cases x with
  | sClosing => rcases closeAnswer_moved (a := a) h with ⟨-, rfl⟩ | ⟨-, rfl⟩ <;> rfl
  | sOpen =>
    rcases openAnswer_moved h with ⟨-, rfl⟩ | ⟨-, rfl⟩
    · exact latchAttributes_cmdIn _ _
    · exact ignoresEnd_cmdIn.raise _ _ _
  | sDrain => obtain ⟨-, -, ⟨-, rfl⟩ | ⟨-, rfl⟩⟩ := drainAnswer_moved h <;> rfl
  | sTx =>
    rcases writeAnswer_moved h with ⟨-, -, rfl⟩ | ⟨-, rfl⟩
    · rfl
    · exact ignoresEnd_cmdIn.raise _ _ _
  | sRx =>
    obtain ⟨-, -, -, ⟨-, rfl⟩ | ⟨-, u, hu, rfl⟩⟩ := readAnswer_moved h
    · exact ignoresEnd_cmdIn.raise _ _ _
    · obtain ⟨-, rfl⟩ := appendRx_moved hu
      exact ignoresEnd_cmdIn.afterBytes _
  | sSyncFlush | sErrFlush =>
    cases h
    rfl
  | sDisc | sSettle | sIdle | sCheck => cases h

theorem checkStep_cmdIn (h : checkStep s = .moved t) : t.cmdIn = s.cmdIn := by
  obtain ⟨-, ⟨vs, u, -, hu, rfl⟩ | ⟨addr, count, -, rfl⟩ | ⟨e, -, rfl⟩⟩ := checkStep_moved h
  · obtain ⟨-, rfl⟩ := loadValues_moved hu
    exact (ignoresEnd_cmdIn.finishValues _ _).trans (checkCrc_cmdIn _ _)
  · exact (ignoresEnd_cmdIn.finishEcho _ _).trans (checkCrc_cmdIn _ _)
  · exact (ignoresEnd_cmdIn.raise _ _ _).trans (checkCrc_cmdIn _ _)

theorem sessionStep_cmdIn (h : sessionStep s = .moved t) : t.cmdIn = s.cmdIn := by
  cases hst : s.st.awaitsAnswer with
  | true =>
    rw [sessionStep_onAnswer hst] at h
    exact takeAnswer_keeps (fun _ _ => rfl) (fun _ _ _ => onAnswer_cmdIn) h
  | false =>
    cases hx : s.st with
    | sSettle =>
      rw [sessionStep, hx] at h
      rcases settleStep_moved h with ⟨-, rfl⟩ | ⟨-, -, rfl⟩ <;> rfl
    | sCheck =>
      rw [sessionStep, hx] at h
      exact checkStep_cmdIn h
    | sDisc | sIdle =>
      rw [sessionStep, hx] at h
      cases h
    | _ =>
      rw [hx] at hst
      cases hst

/-- Making the request of a write does not touch it either. -/
theorem writeRequest_cmdIn {slave : Byte} {start : Half} {n : Nat} {good : Bool}
    (h : writeRequest slave start n good s = .moved t) : t.cmdIn = s.cmdIn := by
  rcases writeRequest_moved h with ⟨-, rfl⟩ | ⟨-, -, rfl⟩ | ⟨-, -, u, hu, ht⟩
  · exact ignoresEnd_cmdIn.raise _ _ _
  · exact ignoresEnd_cmdIn.raise _ _ _
  · obtain ⟨-, rfl⟩ := loadRequest_moved hu
    rcases beginExchange_moved ht with ⟨-, rfl⟩ | ⟨-, rfl⟩
    · rfl
    · exact ignoresEnd_cmdIn.raise _ _ _

theorem takePayload_cmdIn {i : Instr} {n : Nat} {f : Bool → State → Progress} (h : takePayload i n f s = .moved t)
    (hf : ∀ good u, f good u = .moved t → t.cmdIn = u.cmdIn) : t.cmdIn = s.cmdIn := by
  rcases takePayload_moved h with ⟨-, beat, rest, -, rfl⟩ | ⟨-, h⟩
  · rfl
  · exact (hf _ _ h :)

theorem payloadStep_cmdIn (h : payloadStep s = .moved t) : t.cmdIn = s.cmdIn := by
  obtain ⟨i, n, -, -, ⟨slave, start, -, h⟩ | ⟨baud, databits, parity, stopbits, -, h⟩ | ⟨-, h⟩ | ⟨-, h⟩⟩ :=
    payloadStep_moved h
  · exact takePayload_cmdIn h fun _ _ => writeRequest_cmdIn
  · obtain ⟨-, beat, rest, -, rfl⟩ := forwardStep_moved h
    rfl
  · exact takePayload_cmdIn h fun _ _ h => by cases h; rfl
  · exact takePayload_cmdIn h fun _ _ h => ignoresEnd_cmdIn.crcCheckAnswer h

/-- A transition takes no record from the command port. -/
theorem transition_cmdIn (h : transition s = .moved t) : t.cmdIn = s.cmdIn := by
  obtain ⟨-, ⟨r, -, -, rfl⟩ | ⟨v, rest, -, -, -, rfl⟩ | ⟨-, -, -, h⟩ | ⟨-, -, -, -, h⟩ | ⟨-, -, -, -, h⟩⟩ :=
    transition_moved h
  · rfl
  · rfl
  · exact payloadStep_cmdIn h
  · obtain ⟨-, c, -, rfl⟩ := callStep_moved h
    rfl
  · exact sessionStep_cmdIn h

/-! ## The history -/

/-- The event is no acceptance of a command or of a reserved opcode. -/
def Event.NoAcceptance (e : Event) : Prop := (∀ i, e ≠ .cmd i) ∧ ∀ op, e ≠ .reserved op

/-- A transition logs nothing, or one event that is no acceptance. -/
theorem transition_logs_noAcceptance (h : transition s = .moved t) :
    t.trace = s.trace ∨ ∃ e : Event, t.trace = s.trace ++ [e] ∧ e.NoAcceptance := by
  obtain ⟨-, ⟨r, -, -, rfl⟩ | ⟨v, rest, -, -, -, rfl⟩ | ⟨-, -, -, h⟩ | ⟨-, -, -, -, h⟩ | ⟨-, -, -, -, h⟩⟩ :=
    transition_moved h
  · exact .inr ⟨_, deliver_trace s r, nofun, nofun⟩
  · exact .inr ⟨_, deliverValue_trace s v rest, nofun, nofun⟩
  · rcases payloadStep_trace h with h | ⟨beat, h⟩ | ⟨beat, h⟩
    · exact .inl h
    · exact .inr ⟨_, h, nofun, nofun⟩
    · exact .inr ⟨_, h, nofun, nofun⟩
  · obtain ⟨-, c, -, rfl⟩ := callStep_moved h
    exact .inr ⟨_, issue_trace s c, nofun, nofun⟩
  · rcases sessionStep_trace h with h | ⟨r, h⟩ | ⟨n, h⟩
    · exact .inl h
    · exact .inr ⟨_, h, nofun, nofun⟩
    · exact .inr ⟨_, h, nofun, nofun⟩

/-- Settles O9: a command presented to a busy engine waits, and a step of a busy engine waits or is a transition. -/
theorem commandWaitsWhileEngineIsBusy : Obligations.CommandWaitsWhileEngineIsBusy := by
  refine fun s hbusy => ⟨fun i => exec_not_ready hbusy, fun t hr h => ?_⟩
  rw [step_busy hr hbusy] at h
  cases ht : transition s with
  | blocked =>
    rw [ht] at h
    cases h
    exact ⟨rfl, [], by simp, by simp⟩
  | moved u =>
    rw [ht] at h
    cases h
    refine ⟨transition_cmdIn ht, ?_⟩
    rcases transition_logs_noAcceptance ht with htrace | ⟨e, htrace, he⟩
    · exact ⟨[], by simp [htrace], by simp⟩
    · exact ⟨[e], htrace, List.forall_mem_singleton.2 he⟩
  | fault f => rw [ht] at h; cases h
  | refused x => rw [ht] at h; cases h

end Sys2Proof.Machine
end

section
/-! PROOFS. A register command on a Connection (43_function_dispatcher.md R230, 42_bus_session.md R193, R194): its
request is latched and encoded, and from the issue of its write on it is its exchange. -/

namespace Sys2Proof.Machine

variable {s : State} {slave : Byte} {start : Half} {n : Nat}

/-! ## The write of a request -/

/-- The exchange with `slave` begun, its `T.write` outstanding. -/
def begun (slave : Byte) (s : State) : State := { s with slave := slave, st := .sTx }

/-- On a Connection an exchange begins by offering its write (42 R193, R194). -/
theorem beginExchange_connected (hconn : s.connOpen = true) :
    beginExchange slave s = .moved (offerCall (begun slave s)) := if_pos hconn

/-- The write offered is issued, with the whole of `TXBUF[0..TX_LEN)` (42 R194). -/
theorem step_write {frame : List Byte} (h : s.inState .sTx) (ht : s.tReady = true) (htx : s.tx = frame) :
    step (offerCall s) = .next (log (.call (.write s.handle frame)) s) :=
  step_offerCall h rfl ht (by rw [State.portCall, h.1, htx]) rfl

/-! ## The read commands -/

/-- A read command accepted with its request made. -/
def readMade (k : ReadKind) (slave : Byte) (start : Half) (n : Nat) (s : State) : State :=
  { s.withRequest k.fc n (encodeRead slave k start (BitVec.ofNat 16 n)) with
    cmd := some (k.command slave start n), op := k.fc, trace := s.trace ++ [.cmd (k.command slave start n)] }

/-- The step that accepts a valid read on a Connection makes its request and offers its write (43 R231, R232). -/
theorem exec_read_connected (k : ReadKind) (h : s.atRest) (hconn : s.connOpen = true) (hn : n ≤ 125) :
    exec (k.command slave start n) s = .next (offerCall (begun slave (readMade k slave start n s))) := by
  have hfirst := (readRequest_valid (slave := slave) (start := start) k hn).trans
    (beginExchange_connected (s := (accept (k.command slave start n) s).withRequest k.fc n _) hconn)
  rw [exec_ready h.1, first_command, hfirst, accept_atRest h, opcode_command]
  rfl

theorem inState_begun_read (k : ReadKind) (h : s.atRest) : (begun slave (readMade k slave start n s)).inState .sTx :=
  ⟨rfl, (inState_of_atRest h).2⟩

theorem step_write_read (k : ReadKind) (h : s.atRest) (ht : s.tReady = true) (htx : s.txbuf.wf) :
    step (offerCall (begun slave (readMade k slave start n s))) =
      .next (log (.call (.write s.handle (encodeRead slave k start (BitVec.ofNat 16 n))))
        (begun slave (readMade k slave start n s))) :=
  step_write (inState_begun_read k h) ht
    (withRequest_tx (s := s) (fc := k.fc) (n := n) htx (by rw [encodeRead_length]; decide))

/-! ## `WRITE_HOLDING` -/

theorem encodeWrite_beats_length (hle : n ≤ s.payload.length) :
    (encodeWrite slave start ((s.payload.take n).map beatValue)).length = 9 + 2 * n := by
  rw [encodeWrite_length, List.length_map, List.length_take, Nat.min_eq_left hle]

/-- A valid `WRITE_HOLDING` on a Connection takes its values, makes its request and issues its write (43 R233). -/
theorem completes_write_issued (h : s.atRest) (hconn : s.connOpen = true) (ht : s.tReady = true) (htx : s.txbuf.wf)
    (hm : s.vbuf.wf) (hn : n ≤ 123) (hle : n ≤ s.payload.length)
    (hrange : ∀ v ∈ s.payload.take n, 0 ≤ v.toInt ∧ v.toInt ≤ 65535) :
    Completes (.writeHolding slave start n) s
      (log (.call (.write s.handle (encodeWrite slave start ((s.payload.take n).map beatValue))))
        (begun slave (requestMade slave start n s))) := by
  obtain ⟨-, hlive⟩ := inState_of_atRest h
  have hr : s.rst = false := rst_of_cmdReady h.1
  have hq : s.quiet = true := quiet_of_atRest h
  have hoffers : step (valuesTaken slave start n s) = .next (offerCall (begun slave (requestMade slave start n s))) :=
    (step_payload (s := valuesTaken slave start n s) hr hq rfl rfl).trans
      (congrArg (Progress.outcome _) ((payloadStep_valuesTaken h hn hle hm).trans (beginExchange_connected hconn)))
  have hfit : (encodeWrite slave start ((s.payload.take n).map beatValue)).length ≤ Config.maxFrame := by
    rw [encodeWrite_beats_length hle, Config.maxFrame]
    omega
  have hissues := step_write (s := begun slave (requestMade slave start n s)) ⟨rfl, hlive⟩ ht
    (withRequest_tx (s := s.withValues _) (fc := 0x10#8) (n := n) htx hfit)
  exact (completes_valuesTaken h hn hle hrange).trans (.head hoffers (.head hissues (.refl _)))

/-- Settles O36: a read by its acceptance and the next step, a write by its run up to the issue. -/
theorem registerCommandBecomesItsExchange : Obligations.RegisterCommandBecomesItsExchange := by
  intro s slave start n h hconn htx
  obtain ⟨hrest, -⟩ := h
  refine ⟨fun k hn => ⟨exec_read_connected k hrest hconn hn, fun ht => ?_⟩, fun hn hle hm ht hrange => ?_⟩
  · refine (step_write_read k hrest ht htx).trans ?_
    obtain ⟨-, -, -, -, hw⟩ := hrest
    simp [begun, readMade, log, State.withRequest, hw]
  · simpa [begun, requestMade, log] using completes_write_issued hrest hconn ht htx hm hn hle hrange

end Sys2Proof.Machine
end

section
/-! PROOFS. The register commands to their success (43_function_dispatcher.md R231 to R237, 42_bus_session.md R194 to
R200): the matching response is received in its pieces, accepted by the check, and delivered with its values. -/

namespace Sys2Proof.Machine

variable {s t : State} {frame : List Byte} {vs : List Half} {w : Answer} {pieces rest : List Answer}

/-! ## The matching response -/

theorem readResponse_length (slave : Byte) (k : ReadKind) (vs : List Half) :
    (readResponse slave k vs).length = 5 + 2 * vs.length := by
  simp [readResponse]
  omega

/-- A read response of up to 125 values announces its own length (30 R102, R107). -/
theorem flen_readResponse (slave : Byte) (k : ReadKind) (h : vs.length ≤ 125) :
    flen (readResponse slave k vs) = some (readResponse slave k vs).length := by
  have hlen := readResponse_length slave k vs
  have hfc : k.fc = 0x03#8 ∨ k.fc = 0x04#8 := by cases k <;> decide
  have hcount : (byteAt (readResponse slave k vs) 2).toNat = 2 * vs.length :=
    (BitVec.toNat_ofNat _ _).trans (Nat.mod_eq_of_lt (by omega))
  rw [flen_read (rx := readResponse slave k vs) (by omega) hfc, if_neg (by omega), hcount, hlen]

/-- A write response announces its own length (30 R104, R107). -/
theorem flen_writeResponse (slave : Byte) (start count : Half) :
    flen (writeResponse slave start count) = some (writeResponse slave start count).length :=
  flen_write (rx := writeResponse slave start count) (by simp [writeResponse]) rfl

/-! ## The check -/

/-- The check of a frame that is long enough leaves its CRC (40 R133, 41 R154). -/
theorem checkCrc_long (hmin : 5 ≤ frame.length) (s : State) :
    checkCrc frame s = { s with crc := crc16 (crcBody frame) } :=
  if_neg (Nat.not_lt.2 hmin)

/-- A frame in `RXBUF` that fits it is decoded. -/
theorem not_maxFrame_lt_rxLen (hrx : s.rx = frame) (hmax : frame.length ≤ 256) :
    ¬ Config.maxFrame < s.rxLen.toNat := by
  rw [← rx_length, hrx]
  exact Nat.not_lt.2 hmax

/-- A frame that the check accepts ends the exchange, and leaves its CRC (42 R180, R200). -/
def accepted (frame : List Byte) (s : State) : State := { s with st := .sIdle, crc := crc16 (crcBody frame) }

/-- As many values as were asked for are offered from `VBUF`, with `V_LEN` as their count (43 R231, R232). -/
theorem finishValues_matching (hm : s.vbuf.wf) (hmax : vs.length ≤ 125) (hcount : vs.length = s.reqCount.toNat) :
    finishValues vs (s.withValues vs) =
      respond Status.ok.code 0 (BitVec.ofNat 16 vs.length) vs { s.withValues vs with st := .sIdle } := by
  have hvalues : (s.withValues vs).values = vs := loadValues_values hm (if_pos hmax)
  have hlen : (s.withValues vs).vLen.setWidth 16 = BitVec.ofNat 16 vs.length := by
    apply BitVec.eq_of_toNat_eq
    simp only [State.withValues, BitVec.toNat_setWidth, BitVec.toNat_ofNat]
    omega
  rw [finishValues, hvalues, hlen]
  exact if_pos hcount

/-- As many values as were asked for are stored and offered with their count (43 R231, R232). -/
theorem checkStep_values (hrx : s.rx = frame) (hmin : 5 ≤ frame.length) (hmax : frame.length ≤ 256)
    (hd : decodeFrame frame s.slave s.expFc = .values vs) (hm : s.vbuf.wf) (hcount : vs.length = s.reqCount.toNat) :
    checkStep s = .moved (respond Status.ok.code 0 (BitVec.ofNat 16 vs.length) vs
      ((accepted frame s).withValues vs)) := by
  obtain ⟨-, hfit, -⟩ := decodedValuesAreTheFrameFields frame s.slave s.expFc vs hmax hd
  have hload : loadValues vs { s with crc := crc16 (crcBody frame) } =
      .moved (State.withValues { s with crc := crc16 (crcBody frame) } vs) := if_pos hfit
  have hfinish := finishValues_matching (s := { s with crc := crc16 (crcBody frame) }) hm hfit hcount
  rw [checkStep, if_neg (not_maxFrame_lt_rxLen hrx hmax), hrx, hd, checkCrc_long hmin]
  exact (congrArg (Progress.andThen · _) hload).trans (congrArg Progress.moved hfinish)

/-- An echo of the count that was sent is offered, whatever the address (43 R233). -/
theorem checkStep_echo {start count : Half} (hrx : s.rx = frame) (hmin : 5 ≤ frame.length)
    (hmax : frame.length ≤ 256) (hd : decodeFrame frame s.slave s.expFc = .echo start count)
    (hcount : count = s.reqCount) :
    checkStep s = .moved (respond Status.ok.code 0 count [] (accepted frame s)) := by
  rw [checkStep, if_neg (not_maxFrame_lt_rxLen hrx hmax), hrx, hd, checkCrc_long hmin]
  exact congrArg Progress.moved (if_pos hcount)

/-! ## The delivery -/

/-- The command over, its record `r` and then the values `vs` delivered. -/
def delivered (r : Response) (vs : List Half) (s : State) : State :=
  { s with
    cmd := none, rspOut := none, rvOut := [], vLen := 0, trace := s.trace ++ [.rsp r] ++ vs.map .value }

/-- A record offered with the values of `VBUF` is delivered, and they follow it (30 R95, R96). -/
theorem stepsTo_delivered (hr : s.rst = false) (hhost : s.rspReady = true) (hready : s.rvReady = true) (r : Response)
    (vs : List Half) :
    StepsTo (respond r.status r.exc r.result vs (s.withValues vs)) (delivered r vs (s.withValues vs)) := by
  cases vs with
  | nil => simpa [delivered, concluded, State.withValues] using stepsTo_concluded (s := s.withValues []) hr hhost r
  | cons v vs =>
    have hrecord := (step_rsp (s := respond r.status r.exc r.result (v :: vs) (s.withValues (v :: vs))) hr rfl).trans
      (if_pos hhost)
    exact .head hrecord (stepsTo_deliverValues (s := deliver r (respond r.status r.exc r.result (v :: vs)
      (s.withValues (v :: vs)))) hr rfl hready rfl)

/-! ## A whole exchange -/

section Exchange

variable (hf : flen frame = some frame.length) (hmax : frame.length ≤ 256) (h : s.inState .sTx) (ht : s.tReady = true)
  (hrx : s.rxbuf.wf) (ha : s.answers = w :: (pieces ++ rest)) (hok : w.ok = true) (hn : w.n = s.txLen)
  (hp : Pieces frame [] s.tResp pieces)

include hf hmax h ht hrx ha hok hn hp

/-- From the write outstanding an exchange whose response comes whole comes to what the check makes of it. -/
theorem stepsTo_checked (hcheck : checkStep (responded frame w pieces rest s) = .moved t) : StepsTo s t := by
  have hresponded := stepsTo_responded hf hmax h ht hrx ha hok hn hp
  obtain ⟨-, hlive⟩ := h
  have hstep := step_event (s := responded frame w pieces rest s) ⟨rfl, hlive⟩ rfl
  exact hresponded.trans (.head (hstep.trans (congrArg (Progress.outcome _) hcheck)) (.refl t))

/-- A response with as many values as were asked for ends the exchange with their delivery (43 R231, R232, R236). -/
theorem stepsTo_values_delivered (hhost : s.rspReady = true) (hready : s.rvReady = true) (hm : s.vbuf.wf)
    (hd : decodeFrame frame s.slave s.expFc = .values vs) (hcount : vs.length = s.reqCount.toNat) :
    StepsTo s (delivered (Response.success (BitVec.ofNat 16 vs.length)) vs
      ((accepted frame (responded frame w pieces rest s)).withValues vs)) := by
  obtain ⟨hmin, -⟩ := flen_bounds hf
  have hcheck := checkStep_values (s := responded frame w pieces rest s) (responded_rx hmax hrx w pieces rest) hmin hmax
    hd hm hcount
  have hchecked := stepsTo_checked hf hmax h ht hrx ha hok hn hp hcheck
  obtain ⟨-, -, -, -, hr⟩ := h
  exact hchecked.trans (stepsTo_delivered (s := accepted frame (responded frame w pieces rest s)) hr hhost hready
    (Response.success (BitVec.ofNat 16 vs.length)) vs)

/-- A response that echoes the count sent ends the exchange with that count (43 R233, R236). -/
theorem stepsTo_echo_concluded {start count : Half} (hhost : s.rspReady = true)
    (hd : decodeFrame frame s.slave s.expFc = .echo start count) (hcount : count = s.reqCount) :
    StepsTo s (concluded (Response.success count) (accepted frame (responded frame w pieces rest s))) := by
  obtain ⟨hmin, -⟩ := flen_bounds hf
  have hcheck := checkStep_echo (s := responded frame w pieces rest s) (responded_rx hmax hrx w pieces rest) hmin hmax
    hd hcount
  have hchecked := stepsTo_checked hf hmax h ht hrx ha hok hn hp hcheck
  obtain ⟨-, -, -, -, hr⟩ := h
  exact hchecked.trans (stepsTo_concluded (s := accepted frame (responded frame w pieces rest s)) hr hhost
    (Response.success count))

end Exchange

/-! ## The commands -/

/-- Settles O34: the request is made and its write issued, and its exchange delivers the values. -/
theorem readsComplete : Obligations.ReadsComplete := by
  rintro s k slave start n vs w pieces rest ⟨h, hhost⟩ ht hready hconn htx hrx hm hn rfl ha hok hw hp
  have hwrite := step_write_read (slave := slave) (start := start) (n := vs.length) k h ht htx
  have hlive := inState_begun_read (slave := slave) (start := start) (n := vs.length) k h
  have hmax : (readResponse slave k vs).length ≤ 256 := by
    rw [readResponse_length]
    omega
  have hcount : vs.length = (BitVec.ofNat 16 vs.length).toNat := by
    rw [BitVec.toNat_ofNat]
    omega
  have hrun := stepsTo_values_delivered
    (s := log (.call (.write s.handle (encodeRead slave k start (BitVec.ofNat 16 vs.length))))
      (begun slave (readMade k slave start vs.length s))) (flen_readResponse slave k hn) hmax hlive ht hrx
    (ha.trans List.cons_append) hok hw hp hhost hready hm (decodeFrame_readResponse slave k hn) hcount
  refine ⟨_, exec_read_connected k h hconn hn, .head hwrite ?_⟩
  obtain ⟨hcmd, ho, hv⟩ := quiet_of_cmdReady h.1
  simpa [delivered, accepted, responded, begun, readMade, log, State.withRequest, State.withFrame, State.withValues,
    hcmd, ho, hv, hw] using hrun

/-- Settles O35: the values are taken and the write issued, and its exchange answers with the echoed count. -/
theorem writeHoldingCompletes : Obligations.WriteHoldingCompletes := by
  rintro s slave start echoed n w pieces rest ⟨h, hhost⟩ ht hconn htx hrx hm hn hle hrange ha hok hw hp
  have hissued := completes_write_issued (slave := slave) (start := start) h hconn ht htx hm hn hle hrange
  obtain ⟨-, hlive⟩ := inState_of_atRest h
  have hmax : (writeResponse slave echoed (BitVec.ofNat 16 n)).length ≤ 256 := by simp [writeResponse]
  have hwhole : w.n = BitVec.ofNat 9 (encodeWrite slave start ((s.payload.take n).map beatValue)).length := by
    rw [hw, encodeWrite_beats_length hle]
  have hrun := stepsTo_echo_concluded
    (s := log (.call (.write s.handle (encodeWrite slave start ((s.payload.take n).map beatValue))))
      (begun slave (requestMade slave start n s))) (flen_writeResponse slave echoed _) hmax ⟨rfl, hlive⟩ ht hrx
    (ha.trans List.cons_append) hok hwhole hp hhost (decodeFrame_writeResponse slave echoed _) rfl
  refine hissued.trans ?_
  obtain ⟨hcmd, ho, hv⟩ := quiet_of_cmdReady h.1
  simpa [concluded, accepted, responded, begun, requestMade, log, State.withRequest, State.withFrame, State.withValues,
    hcmd, ho, hv] using hrun

end Sys2Proof.Machine
end

section
/-! PROOFS. The failures after the write of an exchange that are not a refused frame (60_exceptions.md R271 to R273): a
write that is not answered whole, and a well-formed response whose count is not the one asked for. -/

namespace Sys2Proof.Machine

variable {s : State} {frame : List Byte}

/-! ## A write not answered whole -/

/-- A write answered with anything but the whole length begins the flush (42 R194, 60 R273). -/
theorem writeAnswer_failed {a : Answer} (hst : s.st = .sTx) (h : ¬ (a.ok = true ∧ a.n = s.txLen)) :
    writeAnswer a s = .moved (failFlush .transportWriteError 0 (log (.reply (writeReply a)) s)) := by
  rw [writeAnswer, if_neg h, raise_inExchange _ _ (by rw [log_st, hst]; rfl)]

/-- Settles O37: the answer begins the flush of a write error. -/
theorem failedWriteIsFlushed : Obligations.FailedWriteIsFlushed := by
  intro s a f rest h hhost ht ha hfail
  have hanswer := step_answer h rfl ha (writeAnswer_failed (s := { s with answers := f :: rest }) h.1 hfail)
  exact .head hanswer (stepsTo_flushedFailure (s := log (.reply (writeReply a)) { s with answers := f :: rest }) h hhost
    ht rfl .transportWriteError 0)

/-! ## Another count -/

/-- The check of a frame has left its CRC, whatever it goes on to find (40 R133, 41 R155). -/
def checked (frame : List Byte) (s : State) : State := { s with crc := crc16 (crcBody frame) }

/-- Values of another count than the one asked for are stored, and begin the flush (43 R231, R232). -/
theorem checkStep_values_mismatch {vs : List Half} (hst : s.st = .sCheck) (hrx : s.rx = frame)
    (hmin : 5 ≤ frame.length) (hmax : frame.length ≤ 256) (hd : decodeFrame frame s.slave s.expFc = .values vs)
    (hcount : vs.length ≠ s.reqCount.toNat) :
    checkStep s = .moved (failFlush .registerCountMismatch 0 ((checked frame s).withValues vs)) := by
  obtain ⟨-, hfit, -⟩ := decodedValuesAreTheFrameFields frame s.slave s.expFc vs hmax hd
  have hload : loadValues vs (checked frame s) = .moved ((checked frame s).withValues vs) := if_pos hfit
  have hfinish : finishValues vs ((checked frame s).withValues vs) =
      failFlush .registerCountMismatch 0 ((checked frame s).withValues vs) :=
    (if_neg hcount).trans (raise_inExchange _ _ (congrArg SessionState.inExchange hst))
  rw [checkStep, if_neg (not_maxFrame_lt_rxLen hrx hmax), hrx, hd, checkCrc_long hmin]
  exact (congrArg (Progress.andThen · _) hload).trans (congrArg Progress.moved hfinish)

/-- An echo of another count than the one sent begins the flush (43 R233). -/
theorem checkStep_echo_mismatch {start count : Half} (hst : s.st = .sCheck) (hrx : s.rx = frame)
    (hmin : 5 ≤ frame.length) (hmax : frame.length ≤ 256) (hd : decodeFrame frame s.slave s.expFc = .echo start count)
    (hcount : count ≠ s.reqCount) :
    checkStep s = .moved (failFlush .writeCountMismatch 0 (checked frame s)) := by
  have hfinish : finishEcho count (checked frame s) = failFlush .writeCountMismatch 0 (checked frame s) :=
    (if_neg hcount).trans (raise_inExchange _ _ (congrArg SessionState.inExchange hst))
  rw [checkStep, if_neg (not_maxFrame_lt_rxLen hrx hmax), hrx, hd, checkCrc_long hmin]
  exact congrArg Progress.moved hfinish

/-- Settles O41: the response is received in its pieces, and what the check makes of its count is flushed. -/
theorem countMismatchIsFlushedAndReported : Obligations.CountMismatchIsFlushedAndReported := by
  intro s frame w f pieces rest h hhost ht hm ha hok hn hp hf hmax t
  obtain ⟨hmin, -⟩ := flen_bounds hf
  have hrx := responded_rx hmax hm w pieces (f :: rest)
  have hchecked {u : State} : checkStep (responded frame w pieces (f :: rest) s) = .moved u → StepsTo s u :=
    stepsTo_checked hf hmax h ht hm (by simpa using ha) hok hn hp
  obtain ⟨-, hlive⟩ := h
  refine ⟨fun vs hd hcount => ?_, fun start count hd hcount => ?_⟩
  · exact (hchecked (checkStep_values_mismatch rfl hrx hmin hmax hd hcount)).trans
      (stepsTo_flushedFailure (s := (checked frame (responded frame w pieces (f :: rest) s)).withValues vs)
        ⟨rfl, hlive⟩ hhost ht rfl .registerCountMismatch 0)
  · exact (hchecked (checkStep_echo_mismatch rfl hrx hmin hmax hd hcount)).trans
      (stepsTo_flushedFailure (s := checked frame (responded frame w pieces (f :: rest) s))
        ⟨rfl, hlive⟩ hhost ht rfl .writeCountMismatch 0)

end Sys2Proof.Machine
end

section
/-! PROOFS. The failures of a command that its acceptance or its payload decides (60_exceptions.md R261, R268 to R270):
an open that fails, a count out of bounds, a value out of range. None of them touches the Connection there is, but that
a `CONNECT` has closed the old one. -/

namespace Sys2Proof.Machine

variable {s : State} {slave : Byte} {start : Half} {n : Nat}

/-! ## An open that fails -/

/-- An open that fails ends the `CONNECT` Disconnected (42 R184, 60 R261). -/
theorem openAnswer_failed {o : Answer} (ho : o.ok = false) :
    openAnswer o s = .moved (respond Status.connectionError.code 0 0 []
      (log (.reply .transportError) { s with st := .sDisc })) := by
  rw [openAnswer, openReply, ho, raise_outside _ _ rfl]
  rfl

/-- Settles O27: the name is forwarded whole, and the answer of `T.open` is the response. -/
theorem connectOpenFailureEndsDisconnected : Obligations.ConnectOpenFailureEndsDisconnected := by
  intro s n baud databits parity stopbits pre rest o h ht htw hle ha hpre hfail
  obtain ⟨hrest, hhost⟩ := h
  have hnamed := completes_named baud databits parity stopbits hrest ht htw hle ha hpre
  have hr : s.rst = false := rst_of_cmdReady hrest.1
  obtain ⟨-, hlive⟩ := inState_of_atRest hrest
  have hanswer := step_answer (s := named n baud databits parity stopbits (o :: rest) s) ⟨rfl, hlive⟩ rfl rfl
    (openAnswer_failed hfail)
  have hdone := stepsTo_concluded (s := log (.reply .transportError)
    { named n baud databits parity stopbits rest s with st := .sDisc }) hr hhost
    (Response.failure .connectionError 0)
  refine hnamed.trans (.head hanswer ?_)
  obtain ⟨hcmd, ho, hv⟩ := quiet_of_cmdReady hrest.1
  simpa [named, concluded, log, Response.failure, hcmd, ho, hv] using hdone

/-! ## A count out of bounds -/

/-- A read of more than 125 registers is answered at once (43 R231, 60 R268). -/
theorem readRequest_tooMany (k : ReadKind) (hn : 125 < n) (hst : s.st.isRest = true) :
    readRequest k slave start n s = .moved (respond Status.tooManyRegisters.code 0 0 [] s) :=
  (if_pos hn).trans (congrArg Progress.moved (raise_outside _ _ (inExchange_of_isRest hst)))

/-- Settles O30: the step that accepts the read offers the response. -/
theorem tooManyRegistersTouchesNothing : Obligations.TooManyRegistersTouchesNothing := by
  intro s k slave start n h hn
  have hst : s.st.isRest = true := isRest_of_cmdReady h.1.1
  have hf : Instr.first (k.command slave start n) (accept (k.command slave start n) s) =
      .moved (respond Status.tooManyRegisters.code 0 0 [] (accept (k.command slave start n) s)) := by
    rw [first_command]
    exact readRequest_tooMany k hn hst
  have hrun := completes_concluded (r := Response.failure .tooManyRegisters 0) h hf rfl rfl
  obtain ⟨hcmd, ho, hv⟩ := quiet_of_cmdReady h.1.1
  rw [accept_atRest h.1] at hrun
  simpa [concluded, opcode_command, hcmd, ho, hv] using hrun

/-- A write with its beats taken whose request fails with `e` answers so, from the rest state it is in (60 R277 b). -/
theorem payloadStep_writeFails {e : Status} (hc : s.cmd = some (.writeHolding slave start n))
    (hst : s.st.isRest = true) (hall : s.plTaken = n)
    (h : writeRequest slave start n s.plGood (payloadOver s) = .moved (raise e 0 (payloadOver s))) :
    payloadStep s =
      let r := Response.failure e 0
      .moved (respond r.status r.exc r.result [] (payloadOver s)) := by
  rw [raise_outside (s := payloadOver s) _ _ (inExchange_of_isRest hst)] at h
  rw [payloadStep, hc]
  exact (takePayload_done hall.ge).trans h

/-- Settles O31: the beats are taken untested, and the count is the answer. -/
theorem tooManyValuesTouchesNothing : Obligations.TooManyValuesTouchesNothing := by
  intro s slave start n h hle hn
  exact completes_payloadAtRest (i := .writeHolding slave start n) (r := Response.failure .tooManyValues 0) h rfl rfl hle
    (keepBeats_writeHolding_tooMany hn 0 _ _) fun u hc hst hall _ _ =>
      payloadStep_writeFails hc (hst ▸ isRest_of_cmdReady h.1.1) hall (if_pos hn)

/-! ## A value out of range -/

theorem beatInRange_eq_false {v : Word} (h : v.toInt < 0 ∨ 65535 < v.toInt) : beatInRange v = false :=
  decide_eq_false (by omega)

/-- A write with a value that failed its test is not encoded (43 R233, 60 R270). -/
theorem writeRequest_outOfRange (hn : n ≤ 123) :
    writeRequest slave start n false s = .moved (raise .invalidRegisterValue 0 s) :=
  (if_neg (Nat.not_lt.2 hn)).trans (if_neg Bool.false_ne_true)

/-- The values before the first out of range are as many as its index (10 R38). -/
theorem map_takeWhile_eq_take (beats : List Word) :
    (beats.takeWhile beatInRange).map beatValue =
      (beats.map beatValue).take (beats.findIdx fun v => !beatInRange v) := by
  rw [List.takeWhile_eq_take_findIdx_not, List.map_take]

/-- Settles O32: the values before the first out of range are stored, and their test is the answer. -/
theorem invalidRegisterValueTouchesNothing : Obligations.InvalidRegisterValueTouchesNothing := by
  rintro s slave start n h hle hn ⟨v, hv, hrange⟩
  have hbad : (s.payload.take n).all beatInRange = false :=
    List.all_eq_false.2 ⟨v, hv, by simp [beatInRange_eq_false hrange]⟩
  have hkept := keepBeats_writeHolding (slave := slave) (start := start) hn 0 (s.payload.take n) ⟨s.crc, true, s.vbuf⟩
  refine ⟨(s.payload.take n).findIdx fun v => !beatInRange v,
    List.findIdx_le_length.trans (List.length_take_le _ _), ?_⟩
  rw [← map_takeWhile_eq_take]
  refine completes_payloadAtRest (i := .writeHolding slave start n) (r := Response.failure .invalidRegisterValue 0) h
    rfl rfl hle hkept fun u hc hst hall _ hgood => ?_
  refine payloadStep_writeFails hc (hst ▸ isRest_of_cmdReady h.1.1) hall ?_
  rw [show u.plGood = false from hgood.trans hbad]
  exact writeRequest_outOfRange hn

end Sys2Proof.Machine
end

section
/-! PROOFS. The statuses of each command (60_exceptions.md R260, R276). A record is offered by a first act, by the end of
a payload, by an answer that ends a command or by the check; each of them offers a status of the command's own row. A
failure inside an exchange offers nothing yet: its flush comes first (42_bus_session.md R202). -/

namespace Sys2Proof.Machine

variable {i : Instr} {s t : State}

/-! ## What may be offered -/

/-- The record offered, if there is one, has a status of command `i`. -/
def OffersOnly (i : Instr) (s : State) : Prop :=
  ∀ r, s.rspOut = some r → ∃ e ∈ Instr.statuses i, r.status = e.code

theorem offersOnly_of_none (h : s.rspOut = none) : OffersOnly i s := fun _ hr => nomatch h.symm.trans hr

theorem OffersOnly.of_eq (h : OffersOnly i s) (ht : t.rspOut = s.rspOut) : OffersOnly i t :=
  fun r hr => h r (ht ▸ hr)

theorem offersOnly_respond {e : Status} (he : e ∈ Instr.statuses i) (c : Byte) (result : Half) (values : List Half)
    (s : State) : OffersOnly i (respond e.code c result values s) := by
  rintro r ⟨⟩
  exact ⟨e, he, rfl⟩

theorem offersOnly_ok (c : Byte) (result : Half) (values : List Half) (s : State) :
    OffersOnly i (respond Status.ok.code c result values s) :=
  offersOnly_respond (by cases i <;> exact List.mem_cons_self) c result values s

/-- Inside an exchange a failure offers nothing yet (42 R202). -/
theorem OffersOnly.raise_inExchange (h : OffersOnly i s) (hx : s.st.inExchange = true) (e : Status) (c : Byte) :
    OffersOnly i (raise e c s) := by
  rw [Machine.raise_inExchange _ _ hx]
  exact h

/-- Outside one it offers its own status. -/
theorem OffersOnly.raise (h : OffersOnly i s) {e : Status} (he : e ∈ Instr.statuses i) (c : Byte) :
    OffersOnly i (raise e c s) := by
  cases hx : s.st.inExchange with
  | true => exact h.raise_inExchange hx e c
  | false =>
    rw [raise_outside _ _ hx]
    exact offersOnly_respond he c 0 [] s

/-! ## The first act and the end of a payload -/

theorem loadRequest_offersOnly {frame : List Byte} (h : loadRequest frame s = .moved t) (hs : OffersOnly i s) :
    OffersOnly i t := by
  obtain ⟨-, rfl⟩ := loadRequest_moved h
  exact hs

theorem beginExchange_offersOnly {slave : Byte} (hs : OffersOnly i s) (he : Status.notConnected ∈ Instr.statuses i)
    (h : beginExchange slave s = .moved t) : OffersOnly i t := by
  rcases beginExchange_moved h with ⟨-, rfl⟩ | ⟨-, rfl⟩
  · exact hs
  · exact hs.raise he 0

/-- A read that begins no exchange has too many registers, or no Connection (60 R262, R268). -/
theorem readRequest_offersOnly {k : ReadKind} {slave : Byte} {start : Half} {n : Nat}
    (hs : OffersOnly (k.command slave start n) s) (h : readRequest k slave start n s = .moved t) :
    OffersOnly (k.command slave start n) t := by
  rcases readRequest_moved h with ⟨-, rfl⟩ | ⟨-, u, hu, ht⟩
  · exact hs.raise (by cases k <;> simp [ReadKind.command, Instr.statuses]) 0
  · have he : Status.notConnected ∈ Instr.statuses (k.command slave start n) := by
      cases k <;> simp [ReadKind.command, Instr.statuses]
    exact beginExchange_offersOnly (loadRequest_offersOnly hu hs) he ht

/-- A write that begins none has too many values, one out of range, or no Connection (60 R262, R269, R270). -/
theorem writeRequest_offersOnly {slave : Byte} {start : Half} {n : Nat} {good : Bool}
    (hs : OffersOnly (.writeHolding slave start n) s) (h : writeRequest slave start n good s = .moved t) :
    OffersOnly (.writeHolding slave start n) t := by
  rcases writeRequest_moved h with ⟨-, rfl⟩ | ⟨-, -, rfl⟩ | ⟨-, -, u, hu, ht⟩
  · exact hs.raise (by simp [Instr.statuses]) 0
  · exact hs.raise (by simp [Instr.statuses]) 0
  · exact beginExchange_offersOnly (loadRequest_offersOnly hu hs) (by simp [Instr.statuses]) ht

/-- `CRC_CHECK` has too few bytes, a trailer that matches, or one that does not (40 R135). -/
theorem crcCheckAnswer_offersOnly {n : Nat} {good : Bool} (hs : OffersOnly (.crcCheck n) s)
    (h : crcCheckAnswer n good s = .moved t) : OffersOnly (.crcCheck n) t := by
  unfold crcCheckAnswer at h
  split at h
  · cases h
    exact hs.raise (by simp [Instr.statuses]) 0
  · split at h <;> cases h
    · exact offersOnly_ok _ _ _ _
    · exact hs.raise (by simp [Instr.statuses]) 0

theorem first_offersOnly (hs : OffersOnly i s) (h : Instr.first i s = .moved t) : OffersOnly i t := by
  cases i with
  | readHolding slave start n => exact readRequest_offersOnly (k := .holding) hs h
  | readInput slave start n => exact readRequest_offersOnly (k := .input) hs h
  | connect n baud databits parity stopbits =>
    cases h
    split <;> exact hs
  | disconnect =>
    cases h
    split
    · exact hs
    · exact offersOnly_ok _ _ _ _
  | setTiming settle resp drain =>
    cases h
    exact offersOnly_ok _ _ _ _
  | writeHolding slave start n | crc16 n | crcCheck n =>
    cases h
    exact hs

/-- A beat taken offers nothing; what follows the last one decides. -/
theorem takePayload_offersOnly {n : Nat} {f : Bool → State → Progress} (hs : OffersOnly i s)
    (hf : ∀ good u, OffersOnly i u → f good u = .moved t → OffersOnly i t) (h : takePayload i n f s = .moved t) :
    OffersOnly i t := by
  rcases takePayload_moved h with ⟨-, beat, rest, -, rfl⟩ | ⟨-, h⟩
  · exact hs
  · exact hf _ { s with plWait := false, plTaken := 0, plGood := true } hs h

theorem payloadStep_offersOnly (hs : OffersOnly i s) (hc : s.cmd = some i) (h : payloadStep s = .moved t) :
    OffersOnly i t := by
  obtain ⟨j, n, hj, -, h⟩ := payloadStep_moved h
  obtain rfl : i = j := Option.some.inj (hc.symm.trans hj)
  rcases h with ⟨slave, start, rfl, h⟩ | ⟨baud, databits, parity, stopbits, rfl, h⟩ | ⟨rfl, h⟩ | ⟨rfl, h⟩
  · exact takePayload_offersOnly hs (fun _ _ => writeRequest_offersOnly) h
  · obtain ⟨-, beat, rest, -, rfl⟩ := forwardStep_moved h
    exact hs
  · refine takePayload_offersOnly hs (fun _ _ _ h => ?_) h
    cases h
    exact offersOnly_ok _ _ _ _
  · exact takePayload_offersOnly hs (fun _ _ => crcCheckAnswer_offersOnly) h

/-! ## The events of the session machine -/

theorem closeAnswer_offersOnly {a : Answer} (hs : OffersOnly i s) (h : closeAnswer a s = .moved t) :
    OffersOnly i t := by
  rcases closeAnswer_moved h with ⟨-, rfl⟩ | ⟨-, rfl⟩
  · exact hs
  · exact offersOnly_ok _ _ _ _

theorem latchAttributes_rspOut (cmd : Option Instr) (s : State) : (latchAttributes cmd s).rspOut = s.rspOut := by
  unfold latchAttributes
  split <;> rfl

/-- The answer of an open is `ConnectionError` at worst, and only a `CONNECT` opens (60 R261). -/
theorem openAnswer_offersOnly {a : Answer} (hs : OffersOnly i s) (hi : Instr.isConnect i = true)
    (h : openAnswer a s = .moved t) : OffersOnly i t := by
  rcases openAnswer_moved h with ⟨-, rfl⟩ | ⟨-, rfl⟩
  · exact hs.of_eq (latchAttributes_rspOut _ _)
  · have he : Status.connectionError ∈ Instr.statuses i := by
      cases i <;> cases hi
      simp [Instr.statuses]
    exact OffersOnly.raise (s := log (.reply .transportError) { s with st := .sDisc }) hs he 0

theorem drainAnswer_offersOnly {a : Answer} (hs : OffersOnly i s) (h : drainAnswer a s = .moved t) :
    OffersOnly i t := by
  obtain ⟨-, -, ⟨-, rfl⟩ | ⟨-, rfl⟩⟩ := drainAnswer_moved h <;> exact hs

theorem settleStep_offersOnly (hs : OffersOnly i s) (h : settleStep s = .moved t) : OffersOnly i t := by
  rcases settleStep_moved h with ⟨-, rfl⟩ | ⟨-, -, rfl⟩ <;> exact hs

theorem writeAnswer_offersOnly {a : Answer} (hs : OffersOnly i s) (hx : s.st.inExchange = true)
    (h : writeAnswer a s = .moved t) : OffersOnly i t := by
  rcases writeAnswer_moved h with ⟨-, -, rfl⟩ | ⟨-, rfl⟩
  · exact hs
  · exact OffersOnly.raise_inExchange (s := log (.reply (writeReply a)) s) hs hx _ _

theorem afterBytes_offersOnly (hs : OffersOnly i s) (hx : s.st.inExchange = true) : OffersOnly i (afterBytes s) := by
  rcases afterBytes_cases s with ⟨n, -, -, h⟩ | ⟨n, -, -, -, h⟩ | ⟨-, -, h⟩ | ⟨-, -, h⟩ <;> rw [h]
  · exact hs.raise_inExchange hx _ _
  · exact hs
  · exact hs.raise_inExchange hx _ _
  · exact hs

theorem readAnswer_offersOnly {a : Answer} (hs : OffersOnly i s) (hx : s.st.inExchange = true)
    (h : readAnswer a s = .moved t) : OffersOnly i t := by
  obtain ⟨-, -, -, ⟨-, rfl⟩ | ⟨-, u, hu, rfl⟩⟩ := readAnswer_moved h
  · exact OffersOnly.raise_inExchange (s := log (.reply (.data [] a.dt)) s) hs hx _ _
  · obtain ⟨-, rfl⟩ := appendRx_moved hu
    exact afterBytes_offersOnly (hs.of_eq rfl) hx

theorem finishValues_offersOnly (hs : OffersOnly i s) (hx : s.st.inExchange = true) (vs : List Half) :
    OffersOnly i (finishValues vs s) := by
  unfold finishValues
  split
  · exact offersOnly_ok _ _ _ _
  · exact hs.raise_inExchange hx _ _

theorem finishEcho_offersOnly (hs : OffersOnly i s) (hx : s.st.inExchange = true) (count : Half) :
    OffersOnly i (finishEcho count s) := by
  unfold finishEcho
  split
  · exact offersOnly_ok _ _ _ _
  · exact hs.raise_inExchange hx _ _

theorem OffersOnly.checkCrc (hs : OffersOnly i s) (b : List Byte) : OffersOnly i (checkCrc b s) := by
  unfold Machine.checkCrc
  split <;> exact hs

theorem checkStep_offersOnly (hs : OffersOnly i s) (hx : s.st.inExchange = true) (h : checkStep s = .moved t) :
    OffersOnly i t := by
  have hs' := hs.checkCrc s.rx
  have hx' : (checkCrc s.rx s).st.inExchange = true := by rw [checkCrc_st, hx]
  obtain ⟨-, ⟨vs, u, -, hu, rfl⟩ | ⟨addr, count, -, rfl⟩ | ⟨e, -, rfl⟩⟩ := checkStep_moved h
  · obtain ⟨-, rfl⟩ := loadValues_moved hu
    exact finishValues_offersOnly (s := (checkCrc s.rx s).withValues vs) hs' hx' vs
  · exact finishEcho_offersOnly hs' hx' count
  · exact hs'.raise_inExchange hx' _ _

/-- After the flush of a failure its error is offered, which is one of the command's (42 R202). -/
theorem Inv.failReturn_offersOnly (hs : Inv s) (hc : s.cmd = some i) (hst : s.st = .sErrFlush) {a : Answer}
    {rest : List Answer} (h : failReturn a { s with answers := rest } = .moved t) : OffersOnly i t := by
  obtain ⟨e, he, -, herr, -⟩ := hs.failure hst i hc
  cases h
  rw [show ({ s with answers := rest } : State).err = e.code from herr]
  exact offersOnly_respond he _ _ _ _

theorem Inv.sessionStep_offersOnly (hs : Inv s) (hc : s.cmd = some i) (ho : OffersOnly i s)
    (h : sessionStep s = .moved t) : OffersOnly i t := by
  have htake {f : Answer → State → Progress} (h : takeAnswer f s = .moved t)
      (hf : ∀ a rest, f a { s with answers := rest } = .moved t → OffersOnly i t) : OffersOnly i t := by
    obtain ⟨a, rest, -, h⟩ := takeAnswer_moved h
    exact hf a rest h
  rcases sessionStep_moved h with ⟨-, h⟩ | ⟨hst, h⟩ | ⟨-, h⟩ | ⟨-, h⟩ | ⟨-, h⟩ | ⟨hst, h⟩ | ⟨hst, h⟩ | ⟨hst, h⟩ |
    ⟨hst, h⟩
  · exact htake h fun _ _ => closeAnswer_offersOnly (ho.of_eq rfl)
  · exact htake h fun _ _ => openAnswer_offersOnly (ho.of_eq rfl) (hs.isConnect_of_st hc (.inl hst))
  · exact htake h fun _ _ => drainAnswer_offersOnly (ho.of_eq rfl)
  · exact settleStep_offersOnly ho h
  · refine htake h fun _ _ h => ?_
    cases h
    exact offersOnly_ok _ _ _ _
  · exact htake h fun _ _ => writeAnswer_offersOnly (ho.of_eq rfl) (congrArg SessionState.inExchange hst)
  · exact htake h fun _ _ => readAnswer_offersOnly (ho.of_eq rfl) (congrArg SessionState.inExchange hst)
  · exact checkStep_offersOnly ho (congrArg SessionState.inExchange hst) h
  · exact htake h fun _ _ => hs.failReturn_offersOnly hc hst

/-! ## A step -/

/-- What the invariant says of the record offered (30 R95, 60 R260). -/
theorem Inv.offersOnly (hs : Inv s) (hc : s.cmd = some i) : OffersOnly i s := fun r hr => by
  obtain ⟨-, -, hstatus⟩ := hs.response r hr
  exact hstatus i hc

theorem Inv.transition_offersOnly (hs : Inv s) (hc : s.cmd = some i) (h : transition s = .moved t) :
    OffersOnly i t := by
  have ho := hs.offersOnly hc
  obtain ⟨-, ⟨r, -, -, rfl⟩ | ⟨v, rest, -, -, -, rfl⟩ | ⟨-, -, -, h⟩ | ⟨-, -, -, -, h⟩ | ⟨-, -, -, -, h⟩⟩ :=
    transition_moved h
  · exact offersOnly_of_none rfl
  · exact ho
  · exact payloadStep_offersOnly ho hc h
  · obtain ⟨-, c, -, rfl⟩ := callStep_moved h
    exact ho
  · exact hs.sessionStep_offersOnly hc ho h

/-- The record a step logs is the one that was offered, so what the two states offer decides. -/
theorem answersOnly_of_offersOnly (hl : LogsAtMostOne s t) (hs : OffersOnly i s) (ht : OffersOnly i t) :
    AnswersOnly i s t := by
  refine ⟨?_, ht⟩
  rcases hl with htrace | ⟨e, htrace, he⟩
  · exact ⟨[], by simp [htrace], by simp⟩
  · refine ⟨[e], htrace, fun r hr => ?_⟩
    obtain rfl := List.mem_singleton.1 hr
    exact hs r he

/-- Settles O55: at acceptance by the command's first act, later by the transition the command makes. -/
theorem commandsAnswerOnlyTheirStatuses : Obligations.CommandsAnswerOnlyTheirStatuses := by
  refine ⟨fun i s t hready h => ?_, fun i s t hs hc h => ?_⟩
  · obtain ⟨-, hnone, -⟩ := quiet_of_cmdReady hready
    have hs : OffersOnly i s := offersOnly_of_none hnone
    rcases exec_next h with ⟨hbusy, -⟩ | ⟨-, h⟩
    · exact absurd (hready.symm.trans hbusy) (by decide)
    · exact answersOnly_of_offersOnly (.inr ⟨.cmd i, by simp [first_trace h], trivial⟩) hs
        (first_offersOnly (s := accept i s) hs h)
  · refine answersOnly_of_offersOnly (step_logsAtMostOne h) (hs.offersOnly hc) ?_
    have hbusy := cmdReady_of_cmd hc
    rcases step_next h with ⟨-, rfl⟩ | ⟨-, hready, -⟩ | ⟨-, hready, -⟩ | ⟨-, hready, -⟩ | ⟨-, -, -, rfl⟩ | ⟨-, -, h⟩
    · exact offersOnly_of_none rfl
    · exact absurd (hready.symm.trans hbusy) (by decide)
    · exact absurd (hready.symm.trans hbusy) (by decide)
    · exact absurd (hready.symm.trans hbusy) (by decide)
    · exact hs.offersOnly hc
    · exact hs.transition_offersOnly hc h

end Sys2Proof.Machine
end

section
/-! PROOFS. What stops the engine (60_exceptions.md R278, R279; 20_memory.md R81). A part of a transition that has its
input never waits, and what it moves to is another state: it logs a line, ends the payload, counts a tick or leaves
`S_CHECK`. So a step that leaves the state as it is found an input missing, and the invariant says which. -/

namespace Sys2Proof.Machine

variable {s t : State} {i : Instr}

/-! ## What never waits -/

theorem andThen_ne_blocked {p : Progress} {f : State → Progress} (hp : p ≠ .blocked) (hf : ∀ u, f u ≠ .blocked) :
    p.andThen f ≠ .blocked := by
  cases p with
  | moved u => exact hf u
  | blocked => exact absurd rfl hp
  | fault e => nofun
  | refused x => nofun

theorem checkedRead_ne_blocked {m : Nat} {a : Answer} {p : Progress} (hp : p ≠ .blocked) :
    checkedRead m a p ≠ .blocked := by
  unfold checkedRead
  split
  · nofun
  · split
    · nofun
    · exact hp

theorem loadRequest_ne_blocked (frame : List Byte) (s : State) : loadRequest frame s ≠ .blocked := by
  unfold loadRequest
  split <;> nofun

theorem writeRequest_ne_blocked (slave : Byte) (start : Half) (n : Nat) (good : Bool) (s : State) :
    writeRequest slave start n good s ≠ .blocked := by
  unfold writeRequest
  split
  · nofun
  · split
    · exact andThen_ne_blocked (loadRequest_ne_blocked _ _) (beginExchange_ne_blocked slave)
    · nofun

theorem crcCheckAnswer_ne_blocked (n : Nat) (good : Bool) (s : State) : crcCheckAnswer n good s ≠ .blocked := by
  unfold crcCheckAnswer
  split
  · nofun
  · split <;> nofun

theorem readAnswer_ne_blocked (a : Answer) (s : State) : readAnswer a s ≠ .blocked := by
  unfold readAnswer
  split
  · nofun
  · refine checkedRead_ne_blocked ?_
    split
    · nofun
    · refine andThen_ne_blocked ?_ fun _ => nofun
      unfold appendRx
      split <;> nofun

/-- An answer that is there is used (20 R65). -/
theorem onAnswer_ne_blocked {x : SessionState} (hx : x.awaitsAnswer = true) (a : Answer) (s : State) :
    x.onAnswer a s ≠ .blocked := by
  cases x with
  | sClosing =>
    simp only [SessionState.onAnswer, closeAnswer]
    split <;> nofun
  | sOpen =>
    simp only [SessionState.onAnswer, openAnswer]
    split <;> nofun
  | sDrain =>
    refine checkedRead_ne_blocked ?_
    split <;> nofun
  | sTx =>
    simp only [SessionState.onAnswer, writeAnswer]
    split <;> nofun
  | sRx => exact readAnswer_ne_blocked a s
  | sSyncFlush | sErrFlush => nofun
  | sDisc | sSettle | sIdle | sCheck => cases hx

theorem checkStep_ne_blocked (s : State) : checkStep s ≠ .blocked := by
  unfold checkStep
  split
  · nofun
  · split
    · refine andThen_ne_blocked ?_ fun _ => nofun
      unfold loadValues
      split <;> nofun
    · nofun
    · nofun

/-! ## What moves, moves on -/

theorem ne_of_trace_append {e : Event} (h : t.trace = s.trace ++ [e]) : t ≠ s := by
  rintro rfl
  simp at h

/-- What never waits and moves to other states only does not leave the state as it is. -/
theorem outcome_ne_next {p : Progress} (hb : p ≠ .blocked) (hm : ∀ t, p = .moved t → t ≠ s) :
    p.outcome s ≠ .next s := by
  cases p with
  | moved t =>
    rintro ⟨⟩
    exact hm s rfl rfl
  | blocked => exact absurd rfl hb
  | fault e => nofun
  | refused x => nofun

theorem onAnswer_logsReply (x : SessionState) : LogsReply x.onAnswer := by
  cases x with
  | sClosing => exact closeAnswer_logsReply
  | sOpen => exact openAnswer_logsReply
  | sDrain => exact drainAnswer_logsReply
  | sSyncFlush => exact syncFlushAnswer_logsReply
  | sTx => exact writeAnswer_logsReply
  | sRx => exact readAnswer_logsReply
  | sErrFlush => exact failReturn_logsReply
  | sDisc | sSettle | sIdle | sCheck => exact fun _ _ _ h => nomatch h

theorem ignoresEnd_plWait : IgnoresEnd State.plWait := fun _ _ _ _ _ _ _ => rfl

theorem writeRequest_plWait {slave : Byte} {start : Half} {n : Nat} {good : Bool}
    (h : writeRequest slave start n good s = .moved t) : t.plWait = s.plWait := by
  rcases writeRequest_moved h with ⟨-, rfl⟩ | ⟨-, -, rfl⟩ | ⟨-, -, u, hu, ht⟩
  · exact ignoresEnd_plWait.raise _ _ _
  · exact ignoresEnd_plWait.raise _ _ _
  · obtain ⟨-, rfl⟩ := loadRequest_moved hu
    rcases beginExchange_moved ht with ⟨-, rfl⟩ | ⟨-, rfl⟩
    · rfl
    · exact ignoresEnd_plWait.raise _ _ _

/-- A failure inside an exchange leaves `S_CHECK` for the flush (42 R202). -/
theorem raise_ne_sCheck (h : s.st.inExchange = true) (e : Status) (c : Byte) : (raise e c s).st ≠ .sCheck := by
  rw [raise_inExchange _ _ h]
  nofun

theorem finishValues_ne_sCheck (h : s.st.inExchange = true) (vs : List Half) : (finishValues vs s).st ≠ .sCheck := by
  unfold finishValues
  split
  · nofun
  · exact raise_ne_sCheck h _ _

theorem finishEcho_ne_sCheck (h : s.st.inExchange = true) (count : Half) : (finishEcho count s).st ≠ .sCheck := by
  unfold finishEcho
  split
  · nofun
  · exact raise_ne_sCheck h _ _

/-- The check leaves `S_CHECK`, whatever it finds (42 R200). -/
theorem checkStep_ne_sCheck (hst : s.st = .sCheck) (h : checkStep s = .moved t) : t.st ≠ .sCheck := by
  have hx : (checkCrc s.rx s).st.inExchange = true := by rw [checkCrc_st, hst]; rfl
  obtain ⟨-, ⟨vs, u, -, hu, rfl⟩ | ⟨addr, count, -, rfl⟩ | ⟨e, -, rfl⟩⟩ := checkStep_moved h
  · obtain ⟨-, rfl⟩ := loadValues_moved hu
    exact finishValues_ne_sCheck (s := (checkCrc s.rx s).withValues vs) hx vs
  · exact finishEcho_ne_sCheck hx count
  · exact raise_ne_sCheck hx _ _

/-! ## The payload -/

theorem plWanted_iff :
    s.plWanted = true ↔ s.plWait = true ∧ s.quiet = true ∧ s.rst = false ∧
      ∃ i n, s.cmd = some i ∧ i.count? = some n ∧ s.plTaken < n := by
  cases hc : s.cmd with
  | none => simp [State.plWanted, State.plLeft, hc]
  | some i => cases hn : i.count? <;> simp [State.plWanted, State.plLeft, hc, hn, and_assoc]

/-- A transfer at rest that leaves the state as it is lacks a beat. -/
theorem takePayload_stays {n : Nat} {f : Bool → State → Progress} (hb : ∀ good u, f good u ≠ .blocked)
    (hk : ∀ good u t, f good u = .moved t → t.plWait = u.plWait) (hp : s.plWait = true)
    (h : (takePayload i n f s).outcome s = .next s) : s.plTaken < n ∧ s.payload = [] := by
  by_cases hn : s.plTaken < n
  · refine ⟨hn, ?_⟩
    cases hpay : s.payload with
    | nil => rfl
    | cons beat rest =>
      rw [takePayload_beat hn hpay] at h
      exact absurd (Host.Outcome.next.inj h) (ne_of_trace_append (takeBeat_trace s i beat rest))
  · rw [takePayload_done (Nat.not_lt.1 hn)] at h
    refine absurd h (outcome_ne_next (hb _ _) ?_)
    rintro t ht rfl
    exact Bool.noConfusion (hp.symm.trans (hk _ _ _ ht))

/-- A name that is not forwarded lacks its next byte, or a transport that takes it (42 R182). -/
theorem forwardStep_stays {n : Nat} (h : (forwardStep n s).outcome s = .next s) :
    s.payload = [] ∨ s.twReady = false := by
  cases hpay : s.payload with
  | nil => exact .inl rfl
  | cons beat rest =>
    refine .inr ?_
    cases htw : s.twReady with
    | false => rfl
    | true =>
      rw [forwardStep_beat htw hpay] at h
      exact absurd (Host.Outcome.next.inj h) (ne_of_trace_append (forwardByte_trace s n beat rest))

/-- A `CONNECT` that has a name to forward has issued its `T.open`, and a byte is still to come (42 R182). -/
theorem Inv.naming_of_sOpen (hs : Inv s) (hst : s.st = .sOpen) (hp : s.plWait = true) : s.naming = true := by
  obtain ⟨-, hname⟩ := hs.call
  simp [State.naming, State.callOutstanding, hst, hp, hname hst hp, SessionState.awaitsAnswer]

theorem Inv.plTaken_lt_of_sOpen (hs : Inv s) (hst : s.st = .sOpen) (hp : s.plWait = true) {n : Nat}
    (hc : s.cmd = some i) (hn : i.count? = some n) : s.plTaken < n := by
  obtain ⟨-, htaken⟩ := hs.payload
  obtain ⟨-, hcount, -⟩ := htaken hp
  obtain ⟨-, hlt⟩ := hcount i n hc hn
  exact hlt hst

/-- A payload transfer that leaves the state as it is waits for a beat, or for the transport to take its byte. -/
theorem Inv.payloadStep_stays (hs : Inv s) (hr : s.rst = false) (hp : s.plWait = true)
    (h : (payloadStep s).outcome s = .next s) : s.Waits := by
  have hq := hs.quiet_of_plWait hp
  have hwants {i : Instr} {n : Nat} (hc : s.cmd = some i) (hn : i.count? = some n) (hlt : s.plTaken < n)
      (hpay : s.payload = []) : s.Waits := by
    have hwanted : s.plWanted = true := plWanted_iff.2 ⟨hp, hq, hr, i, n, hc, hn, hlt⟩
    simp [State.Waits, hwanted, hpay]
  obtain ⟨i, hc⟩ := Option.isSome_iff_exists.1 (hs.cmd_isSome (.inl hp))
  have hst := hs.st_of_plWait hp
  simp only [State.cmdIs, hc, Option.any_some] at hst
  rw [payloadStep, hc] at h
  cases i with
  | writeHolding slave start n =>
    obtain ⟨hlt, hpay⟩ :=
      takePayload_stays (writeRequest_ne_blocked _ _ _) (fun _ _ _ => writeRequest_plWait) hp h
    exact hwants hc rfl hlt hpay
  | crc16 n =>
    obtain ⟨hlt, hpay⟩ := takePayload_stays (f := crcAnswer) (fun _ _ => nofun)
      (fun _ _ _ h => by cases h; rfl) hp h
    exact hwants hc rfl hlt hpay
  | crcCheck n =>
    obtain ⟨hlt, hpay⟩ := takePayload_stays (crcCheckAnswer_ne_blocked _)
      (fun _ _ _ h => ignoresEnd_plWait.crcCheckAnswer h) hp h
    exact hwants hc rfl hlt hpay
  | connect n baud databits parity stopbits =>
    obtain ⟨hopen, -⟩ := hst.resolve_left fun h => nomatch h.2
    cases hpay : s.payload with
    | nil => exact hwants hc rfl (hs.plTaken_lt_of_sOpen hopen hp hc rfl) hpay
    | cons beat rest =>
      have htw := (forwardStep_stays h).resolve_left (by simp [hpay])
      have hvalid : s.twValid = true := by simp [State.twValid, hs.naming_of_sOpen hopen hp, hq, hpay, hr]
      simp [State.Waits, hvalid, htw]
  | readHolding | readInput | disconnect | setTiming =>
    exact absurd hst (by simp [Instr.payloadAtRest, Instr.isConnect])

/-! ## A call and the session machine -/

/-- A state that waits for an answer has its call (42 R180). -/
theorem Inv.portCall_isSome (hs : Inv s) (hst : s.st.awaitsAnswer = true) : s.portCall.isSome = true := by
  unfold State.portCall
  cases hx : s.st with
  | sOpen =>
    obtain ⟨i, hc⟩ := Option.isSome_iff_exists.1 (hs.cmd_isSome (.inr (isRest_of_awaitsAnswer hst)))
    have hi := hs.isConnect_of_st hc (.inl hx)
    cases i <;> cases hi
    rw [hc]
    rfl
  | sDisc | sSettle | sIdle | sCheck =>
    rw [hx] at hst
    cases hst
  | _ => rfl

/-- An offered call that is not issued waits for the transport (30 R98). -/
theorem Inv.callStep_stays (hs : Inv s) (hr : s.rst = false) (hw : s.callWait = true)
    (h : (callStep s).outcome s = .next s) : s.Waits := by
  obtain ⟨hcall, -⟩ := hs.call
  obtain ⟨c, hc⟩ := Option.isSome_iff_exists.1 (hs.portCall_isSome (hcall hw))
  have hvalid : s.tValid = true := by simp [State.tValid, hw, hr]
  cases ht : s.tReady with
  | false => simp [State.Waits, hvalid, ht]
  | true =>
    rw [callStep, if_pos ht, hc] at h
    exact absurd (Host.Outcome.next.inj h) (ne_of_trace_append (issue_trace s c))

/-- A settle wait that leaves the state as it is lacks a tick (42 R188). -/
theorem settleStep_stays (h : (settleStep s).outcome s = .next s) : s.rem ≠ 0 ∧ s.ticks = 0 := by
  unfold settleStep at h
  split at h
  · exact absurd (Host.Outcome.next.inj h) (ne_of_trace_append (log_trace { s with st := .sSyncFlush } _))
  · refine ⟨‹_›, ?_⟩
    split at h
    · assumption
    · have hticks : s.ticks - 1 = s.ticks := congrArg State.ticks (Host.Outcome.next.inj h)
      omega

/-- The event of a state that is no rest state waits for an answer or a tick only (42 R180). -/
theorem sessionStep_stays (hr : s.rst = false) (hp : s.plWait = false) (hw : s.callWait = false)
    (hst : s.st.isRest = false) (h : (sessionStep s).outcome s = .next s) : s.Waits := by
  cases hx : s.st.awaitsAnswer with
  | true =>
    have hready : s.aReady = true := by simp [State.aReady, State.callOutstanding, hx, hp, hw, hr]
    cases ha : s.answers with
    | nil => simp [State.Waits, hready, ha]
    | cons a rest =>
      rw [sessionStep_onAnswer hx, takeAnswer_cons ha] at h
      refine absurd h (outcome_ne_next (onAnswer_ne_blocked hx _ _) fun t ht => ?_)
      obtain ⟨r, htrace⟩ := onAnswer_logsReply _ _ _ _ ht
      exact ne_of_trace_append htrace
  | false =>
    cases hst' : s.st with
    | sSettle =>
      rw [sessionStep, hst'] at h
      obtain ⟨hrem, hticks⟩ := settleStep_stays h
      simp [State.Waits, hst', show s.rem ≠ 0#32 from hrem, hticks]
    | sCheck =>
      rw [sessionStep, hst'] at h
      refine absurd h (outcome_ne_next (checkStep_ne_blocked s) ?_)
      rintro t ht rfl
      exact checkStep_ne_sCheck hst' ht hst'
    | _ =>
      rw [hst'] at hx hst
      cases hx <;> cases hst

/-! ## A step -/

/-- With no payload in transfer and nothing to deliver, an engine in execution is in no rest state (42 R180). -/
theorem Inv.isRest_of_busy (hs : Inv s) (hp : s.plWait = false) (hq : s.quiet = true) (hr : s.rst = false)
    (hbusy : s.cmdReady = false) : s.st.isRest = false := by
  have h := hs.command
  cases hst : s.st <;>
    simp_all [State.commandAgrees, State.cmdReady, State.busy, SessionState.isRest]

/-- What a transition that leaves the state as it is waits for. -/
theorem Inv.transition_stays (hs : Inv s) (hr : s.rst = false) (hbusy : s.cmdReady = false)
    (h : (transition s).outcome s = .next s) : s.Waits := by
  cases ho : s.rspOut with
  | some r =>
    cases hhost : s.rspReady with
    | false => simp [State.Waits, State.rspValid, ho, hr, hhost]
    | true =>
      rw [transition_deliver hr ho hhost] at h
      exact absurd (Host.Outcome.next.inj h) (ne_of_trace_append (deliver_trace s r))
  | none =>
    cases hv : s.rvOut with
    | cons v rest =>
      cases hhost : s.rvReady with
      | false => simp [State.Waits, State.rvValid, ho, hv, hr, hhost]
      | true =>
        rw [transition_deliverValue hr ho hv hhost] at h
        exact absurd (Host.Outcome.next.inj h) (ne_of_trace_append (deliverValue_trace s v rest))
    | nil =>
      rw [transition_quiet hr ho hv, workStep] at h
      cases hp : s.plWait with
      | true =>
        rw [hp, if_pos rfl] at h
        exact hs.payloadStep_stays hr hp h
      | false =>
        rw [hp, if_neg Bool.false_ne_true] at h
        cases hw : s.callWait with
        | true =>
          rw [hw, if_pos rfl] at h
          exact hs.callStep_stays hr hw h
        | false =>
          rw [hw, if_neg Bool.false_ne_true] at h
          have hq : s.quiet = true := by simp [State.quiet, ho, hv]
          exact sessionStep_stays hr hp hw (hs.isRest_of_busy hp hq hr hbusy) h

/-- A step that leaves the state as it is waits for an input. -/
theorem Inv.waits_of_step (hs : Inv s) (hr : s.rst = false) (h : step s = .next s) : s.Waits := by
  cases hready : s.cmdReady with
  | false =>
    rw [step_busy hr hready] at h
    exact hs.transition_stays hr hready h
  | true =>
    refine .inl ⟨hready, ?_⟩
    cases hc : s.cmdIn with
    | nil => rfl
    | cons r rest =>
      cases hd : decodeRecord r with
      | ok i =>
        rw [step_ready_cons hready hc hd] at h
        rcases exec_next h with ⟨hbusy, -⟩ | ⟨-, hf⟩
        · exact Bool.noConfusion (hready.symm.trans hbusy)
        · exact absurd rfl (ne_of_trace_append (first_trace hf))
      | error e =>
        rw [step_ready_reserved hready hc hd] at h
        exact absurd (Host.Outcome.next.inj h) (ne_of_trace_append (log_trace (consumeRecord s) _))

/-- Outside the rest states nothing is delivered (42 R180). -/
theorem Inv.quiet_of_not_isRest (hs : Inv s) (hst : s.st.isRest = false) : s.quiet = true := by
  by_contra hq
  exact Bool.noConfusion (hst.symm.trans (hs.isRest_of_not_quiet (Bool.eq_false_iff.2 hq)))

/-- Outside the rest states the payload in transfer is the name of a `CONNECT` (42 R182). -/
theorem Inv.sOpen_of_plWait (hs : Inv s) (hp : s.plWait = true) (hst : s.st.isRest = false) : s.st = .sOpen := by
  rcases hs.st_of_plWait hp with ⟨hrest, -⟩ | ⟨hopen, -⟩
  · exact Bool.noConfusion (hst.symm.trans hrest)
  · exact hopen

/-- While a call is offered no payload is in transfer (30 R98). -/
theorem Inv.plWait_of_callWait (hs : Inv s) (hw : s.callWait = true) : s.plWait = false := by
  obtain ⟨hcall, hname⟩ := hs.call
  cases hp : s.plWait with
  | false => rfl
  | true =>
    have hopen := hs.sOpen_of_plWait hp (isRest_of_awaitsAnswer (hcall hw))
    exact hw.symm.trans (hname hopen hp)

theorem Inv.inState_sSettle (hs : Inv s) (hr : s.rst = false) (hst : s.st = .sSettle) : s.inState .sSettle := by
  have hrest : s.st.isRest = false := by rw [hst]; rfl
  refine ⟨hst, ?_, ?_, hs.quiet_of_not_isRest hrest, hr⟩
  · refine Bool.eq_false_iff.2 fun hp => ?_
    exact SessionState.noConfusion (hst.symm.trans (hs.sOpen_of_plWait hp hrest))
  · refine Bool.eq_false_iff.2 fun hw => ?_
    exact Bool.noConfusion ((congrArg SessionState.awaitsAnswer hst).symm.trans (hs.call.1 hw))

/-- An engine that lacks the input it waits for leaves the state as it is. -/
theorem Inv.step_of_waits (hs : Inv s) (hr : s.rst = false) (h : s.Waits) : step s = .next s := by
  obtain ⟨hcall, -⟩ := hs.call
  rcases h with ⟨hready, hc⟩ | ⟨hvalid, hh⟩ | ⟨hvalid, hh⟩ | ⟨hwanted, hpay⟩ | ⟨hvalid, ht⟩ | ⟨hvalid, htw⟩ |
    ⟨hready, ha⟩ | ⟨hst, hrem, hticks⟩
  · exact step_ready_nil hready hc
  · obtain ⟨r, ho⟩ : ∃ r, s.rspOut = some r := by
      simpa [State.rspValid, hr, Option.isSome_iff_exists] using hvalid
    rw [step_rsp hr ho, if_neg (by simp [hh])]
  · obtain ⟨ho, hv⟩ : s.rspOut = none ∧ s.rvOut ≠ [] := by simpa [State.rvValid, hr] using hvalid
    obtain ⟨v, rest, hv⟩ := List.exists_cons_of_ne_nil hv
    rw [step_value hr ho hv, if_neg (by simp [hh])]
  · obtain ⟨hp, hq, -, i, n, hc, hn, hlt⟩ := plWanted_iff.1 hwanted
    refine step_no_beat hr hq hp hc hn ?_ hlt hpay
    simpa [State.cmdIs, hc] using (hs.st_of_plWait hp).imp And.right And.right
  · obtain ⟨hw, -⟩ : s.callWait = true ∧ s.rst = false := by simpa [State.tValid] using hvalid
    have hst := hcall hw
    exact (unansweredCallWaits s hr (hs.quiet_of_not_isRest (isRest_of_awaitsAnswer hst)) hst
      (hs.plWait_of_callWait hw)).1 hw ht
  · obtain ⟨⟨hp, hst, -⟩, hq, hpay⟩ : (s.plWait = true ∧ s.st.awaitsAnswer = true ∧ s.callWait = false) ∧
        s.quiet = true ∧ s.payload ≠ [] := by
      simpa [State.twValid, State.naming, State.callOutstanding, hr, and_assoc] using hvalid
    obtain ⟨i, hc⟩ := Option.isSome_iff_exists.1 (hs.cmd_isSome (.inl hp))
    have hi := hs.isConnect_of_st hc (.inl (hs.sOpen_of_plWait hp (isRest_of_awaitsAnswer hst)))
    obtain ⟨n, hn⟩ : ∃ n, i.count? = some n := by
      cases i <;> cases hi
      exact ⟨_, rfl⟩
    obtain ⟨beat, rest, hpay⟩ := List.exists_cons_of_ne_nil hpay
    rw [step_forward hr hq hp hc hn hi hpay, if_neg (by simp [htw])]
  · obtain ⟨⟨hst, hw⟩, hp⟩ : (s.st.awaitsAnswer = true ∧ s.callWait = false) ∧ s.plWait = false := by
      simpa [State.aReady, State.callOutstanding, hr] using hready
    exact (unansweredCallWaits s hr (hs.quiet_of_not_isRest (isRest_of_awaitsAnswer hst)) hst hp).2 hw ha
  · exact step_no_tick (hs.inState_sSettle hr hst) hrem hticks

/-- Settles O59: a missing input stops the step that needs it, and nothing else does. -/
theorem engineStopsOnlyForAnInput : Obligations.EngineStopsOnlyForAnInput :=
  fun _ hs hr => ⟨hs.waits_of_step hr, hs.step_of_waits hr⟩

end Sys2Proof.Machine
end

section
/-! PROOFS. The reset state and the reset input (70_reset_and_hazards.md R300 to R302). -/

namespace Sys2Proof.Machine

variable {s : State}

/-! ## The reset state -/

/-- Settles O45: 10 R43's value of each element named, and the outputs that follow from them. -/
theorem resetStateIsDisconnected : Obligations.ResetStateIsDisconnected :=
  ⟨rfl, rfl, rfl, rfl, rfl, rfl, rfl, rfl⟩

/-! ## The reset input -/

/-- While `rst` is 1 no command is accepted (70 R300). -/
theorem cmdReady_rst (hr : s.rst = true) : s.cmdReady = false := by
  simp [State.cmdReady, hr]

/-- A step sees the reset input before anything else (70 R300). -/
theorem step_rst (hr : s.rst = true) : step s = .next (hardReset s) :=
  if_pos hr

/-- No input that a reset keeps makes the engine busy. -/
theorem busy_hardReset : (hardReset s).busy = false := rfl

theorem cmdReady_hardReset : (hardReset s).cmdReady = true := rfl

/-- The answer of a call outstanding never arrives (70 R302). -/
theorem answers_hardReset :
    (hardReset s).answers = if s.callOutstanding then s.answers.drop 1 else s.answers := rfl

/-- Settles O46: the step is `hardReset`, and `rst` holds `cmd_ready` low and blocks every transition. -/
theorem resetInputForgetsAndCallsNothing : Obligations.ResetInputForgetsAndCallsNothing := by
  intro s hr
  have hready : s.cmdReady = false := cmdReady_rst hr
  exact ⟨hardReset s, step_rst hr, rfl, rfl, rfl, rfl, rfl, busy_hardReset, cmdReady_hardReset, rfl,
    answers_hardReset, hready, transition_rst hr, fun _ => exec_not_ready hready⟩

end Sys2Proof.Machine
end

section
/-! PROOFS. The packed command record (30_encoding.md R91; the packing is notes/assumptions/3.md): its fields come back
from its bytes, so whatever decodes encodes again; a word of the opcode table presented to the engine (R90, R93;
notes/assumptions/20.md). -/

namespace Sys2Proof

/-! ## The fields of the packed record -/

/-- A 16-bit field comes back from its two bytes. -/
@[simp] theorem unpackHalf_extractLsb' (v : Half) : unpackHalf (v.extractLsb' 0 8) (v.extractLsb' 8 8) = v := by
  rw [unpackHalf, BitVec.extractLsb'_append_extractLsb'_eq_extractLsb' (start₁ := 0) (len₁ := 8) rfl]
  exact BitVec.extractLsb'_eq_self

/-- A 32-bit field comes back from its four bytes. -/
@[simp] theorem unpackWord_extractLsb' (v : Word) :
    unpackWord (v.extractLsb' 0 8) (v.extractLsb' 8 8) (v.extractLsb' 16 8) (v.extractLsb' 24 8) = v := by
  rw [unpackWord, BitVec.extractLsb'_append_extractLsb'_eq_extractLsb' (start₂ := 24) (start₁ := 16) rfl,
    BitVec.extractLsb'_append_extractLsb'_eq_extractLsb' (start₂ := 16) (start₁ := 8) rfl,
    BitVec.extractLsb'_append_extractLsb'_eq_extractLsb' (start₂ := 8) (start₁ := 0) rfl]
  exact BitVec.extractLsb'_eq_self

/-- The packed record read back, every field at every value. -/
theorem CmdRecord.ofBytes_toBytes (r : CmdRecord) : CmdRecord.ofBytes r.toBytes = .ok r := by
  simp [CmdRecord.toBytes, packHalf, packWord, CmdRecord.ofBytes]

/-- Bytes that are a record are 27, the opcode first. -/
theorem CmdRecord.shape_of_ofBytes {bytes : List Byte} {r : CmdRecord} (h : CmdRecord.ofBytes bytes = .ok r) :
    bytes.length = 27 ∧ bytes.head? = some r.op := by
  unfold CmdRecord.ofBytes at h
  split at h
  · cases h
    exact ⟨rfl, rfl⟩
  · cases h

/-! ## The decoder by its two halves -/

theorem decode_of_record {bytes : List Byte} {r : CmdRecord} (h : CmdRecord.ofBytes bytes = .ok r) :
    decode bytes = decodeRecord r := by
  simp [decode, h]

/-- Bytes that decode are a record, and the record selects the command. -/
theorem record_of_decode {bytes : List Byte} {i : Instr} (h : decode bytes = .ok i) :
    ∃ r, CmdRecord.ofBytes bytes = .ok r ∧ decodeRecord r = .ok i := by
  cases hr : CmdRecord.ofBytes bytes with
  | ok r => exact ⟨r, rfl, (decode_of_record hr).symm.trans h⟩
  | error e => simp [decode, hr] at h

/-! ## What the opcode map selects -/

theorem wf_iff_of_count? {i : Instr} {n : Nat} (hn : i.count? = some n) : i.wf = true ↔ n < 2 ^ 32 := by
  simp [Instr.wf, hn]

/-- What the opcode map selects has the record's opcode, and a count out of `cmd_count`'s 32 bits (R91, R93). -/
theorem opcode_wf_of_decodeRecord {r : CmdRecord} {i : Instr} (h : decodeRecord r = .ok i) :
    i.opcode = r.op ∧ i.wf = true := by
  have hcount {j : Instr} (hn : j.count? = some r.count.toNat) : j.wf = true :=
    (wf_iff_of_count? hn).2 r.count.isLt
  have row (j : Instr) (hj : decodeRecord r = .ok j) (hop : r.op = j.opcode) (hwf : j.wf = true) :
      i.opcode = r.op ∧ i.wf = true := by
    obtain rfl : j = i := Except.ok.inj (hj.symm.trans h)
    exact ⟨hop.symm, hwf⟩
  by_cases hop : r.op ∈ [0x03#8, 0x04#8, 0x10#8, 0x80#8, 0x81#8, 0x82#8, 0x90#8, 0x91#8]
  · simp only [List.mem_cons, List.not_mem_nil, or_false] at hop
    obtain hop | hop | hop | hop | hop | hop | hop | hop := hop
    · exact row _ (decodeRecord_readHolding hop) hop (hcount rfl)
    · exact row _ (decodeRecord_readInput hop) hop (hcount rfl)
    · exact row _ (decodeRecord_writeHolding hop) hop (hcount rfl)
    · exact row _ (decodeRecord_connect hop) hop (hcount rfl)
    · exact row _ (decodeRecord_disconnect hop) hop rfl
    · exact row _ (decodeRecord_setTiming hop) hop rfl
    · exact row _ (decodeRecord_crc16 hop) hop (hcount rfl)
    · exact row _ (decodeRecord_crcCheck hop) hop (hcount rfl)
  · rw [decodeRecord_reserved hop] at h
    cases h

/-! ## Decode and encode -/

/-- The count of a well-formed command comes back from `cmd_count` (R91). -/
theorem count_toNat {i : Instr} {n : Nat} (h : i.wf = true) (hn : i.count? = some n) :
    (BitVec.ofNat 32 n).toNat = n :=
  Nat.mod_eq_of_lt ((wf_iff_of_count? hn).1 h)

/-- The record of a well-formed command selects it (R93). -/
theorem decodeRecord_encodeRecord {i : Instr} (h : i.wf = true) : decodeRecord (encodeRecord i) = .ok i := by
  cases i with
  | readHolding slave start n => simp [decodeRecord_readHolding, encodeRecord, count_toNat h rfl]
  | readInput slave start n => simp [decodeRecord_readInput, encodeRecord, count_toNat h rfl]
  | writeHolding slave start n => simp [decodeRecord_writeHolding, encodeRecord, count_toNat h rfl]
  | connect n baud databits parity stopbits => simp [decodeRecord_connect, encodeRecord, count_toNat h rfl]
  | disconnect => rfl
  | setTiming settle resp drain => rfl
  | crc16 n => simp [decodeRecord_crc16, encodeRecord, count_toNat h rfl]
  | crcCheck n => simp [decodeRecord_crcCheck, encodeRecord, count_toNat h rfl]

/-- Settles O1: the record comes back from its bytes, and selects the command it was made of. -/
theorem decodeOfEncodeIsTheInstruction : Obligations.DecodeOfEncodeIsTheInstruction := fun i hi =>
  calc decode (encode i)
    _ = decodeRecord (encodeRecord i) := decode_of_record (CmdRecord.ofBytes_toBytes _)
    _ = .ok i := decodeRecord_encodeRecord hi

/-- Settles O2: the bytes are a record whose opcode and count the command carries, so O1 applies to it. -/
theorem decodedInstructionReencodes : Obligations.DecodedInstructionReencodes := by
  intro bytes i h
  obtain ⟨r, hbytes, hr⟩ := record_of_decode h
  obtain ⟨hlength, hhead⟩ := CmdRecord.shape_of_ofBytes hbytes
  obtain ⟨hop, hwf⟩ := opcode_wf_of_decodeRecord hr
  exact ⟨hwf, hlength, hop ▸ hhead, decodeOfEncodeIsTheInstruction i hwf⟩

/-- Settles O4: each word evaluated. -/
theorem writtenOutWordsDecode : Obligations.WrittenOutWordsDecode :=
  ⟨rfl, rfl, rfl, rfl, rfl, rfl⟩

end Sys2Proof

namespace Sys2Proof.Machine

variable {s : State}

/-! ## A word of the opcode table -/

/-- A table word that decodes is a record, and the record selects the command. -/
theorem recordOfWord_of_decodeTableWord {nbits w : Nat} {i : Instr} (h : decodeTableWord nbits w = some i) :
    ∃ r, recordOfWord nbits w = some r ∧ decodeRecord r = .ok i := by
  have hdecode : decode (tableBytes nbits w) = .ok i := by
    unfold decodeTableWord at h
    split at h
    · rwa [← Option.some.inj h]
    · cases h
  obtain ⟨r, hbytes, hr⟩ := record_of_decode hdecode
  exact ⟨r, by simp [recordOfWord, hbytes], hr⟩

/-- With a record presented so, the engine is ready for it (R90): it rests, whichever of the two rest states it is
in. -/
theorem cmdReady_presentRecord (r : CmdRecord) : (presentRecord r s).cmdReady = true := by
  cases hconn : s.connOpen <;>
    simp [presentRecord, State.cmdReady, State.busy, State.quiet, SessionState.isRest, hconn]

/-- Settles O8: the word's record is presented to an engine that is ready, which takes it and runs its command. -/
theorem tableWordRunsAsNextCommand : Obligations.TableWordRunsAsNextCommand := by
  intro s nbits w i h
  obtain ⟨r, hword, hr⟩ := recordOfWord_of_decodeTableWord h
  have hpresent : s.withFetchWord nbits w = presentRecord r s := by simp [State.withFetchWord, hword]
  rw [hpresent]
  exact step_ready_cons (cmdReady_presentRecord r) rfl hr

end Sys2Proof.Machine
end
